-- ==== Sys2Proof/Word.lean ====
section
/-! DEFINITION. The words of the DV-12 model: bytes, the index types of the part's numbered things, clamped
integers, and fixed-length tables read and written by index (spec/00_scope.md, Terms and Conventions). -/

namespace Sys2Proof

/-- One byte of common memory or of the flash store. -/
abbrev Byte := BitVec 8

/-- A voice, 0 to 11 (terms: Voice). -/
abbrev VoiceId := Fin 12
/-- An oscillator, 0 to 23: oscillator 2v is voice v's A oscillator and 2v+1 its B oscillator. -/
abbrev OscId := Fin 24
/-- A control-voltage channel, 0 to 127 (R60). -/
abbrev ChanId := Fin 128
/-- A voice card and its measure channel, 0 to 3 (R75). -/
abbrev CardId := Fin 4
/-- An anchor, 0 to 8 (R73). -/
abbrev AnchorId := Fin 9
/-- A knob, 0 to 47 (R111). -/
abbrev KnobId := Fin 48
/-- A switch input, 0 to 65 (R124). -/
abbrev SwitchId := Fin 66
/-- A flash page, 0 to 63 (R130). -/
abbrev PageId := Fin 64
/-- A patch slot, 0 to 199 (R133). -/
abbrev SlotId := Fin 200
/-- A parameter ID, 0 to 39 (R96). -/
abbrev ParamId := Fin 40
/-- A directory entry and the area it names, 0 to 7 (R159). -/
abbrev AreaId := Fin 8
/-- A key, 0 to 127. -/
abbrev Key := Fin 128
/-- A note velocity, 0 to 127. -/
abbrev Velocity := Fin 128
/-- A pitch in pitch units, 0 to 32767. -/
abbrev Pitch := Fin 32768
/-- A DAC code, 0 to 65535. -/
abbrev Code := Fin 65536
/-- A parameter value, 0 to 4095 (R96). -/
abbrev ParamVal := Fin 4096

/-- "Clamp to lo..hi" (spec/00_scope.md, Arithmetic). -/
def clampInt (lo hi x : Int) : Int :=
  if x < lo then lo else if hi < x then hi else x

/-- "Clamp to lo..hi" of a non-negative quantity. -/
def clampNat (lo hi x : Nat) : Nat :=
  if x < lo then lo else if hi < x then hi else x

/-- Clamp an integer to 0..n, as an index. -/
def clampFin (n : Nat) (x : Int) : Fin (n + 1) :=
  if x < 0 then 0 else if h : x.toNat ≤ n then ⟨x.toNat, Nat.lt_succ_of_le h⟩ else Fin.last n

/-- Read a fixed-length table. -/
def tget {α : Type} {n : Nat} (t : Vector α n) (i : Fin n) : α := t[i.val]

/-- Write one place of a fixed-length table. -/
def tset {α : Type} {n : Nat} (t : Vector α n) (i : Fin n) (x : α) : Vector α n := t.set i.val x i.isLt

/-- Change one place of a fixed-length table. -/
def tmod {α : Type} {n : Nat} (t : Vector α n) (i : Fin n) (f : α → α) : Vector α n := tset t i (f (tget t i))

/-- The bytes of a number, least significant first, `n` of them (spec/00_scope.md, Byte order). -/
def leBytes : Nat → Nat → List Byte
  | 0, _ => []
  | n + 1, x => BitVec.ofNat 8 x :: leBytes n (x / 256)

/-- The number whose bytes, least significant first, are the list. -/
def ofLe : List Byte → Nat
  | [] => 0
  | b :: bs => b.toNat + 256 * ofLe bs

/-- The sum of a run of bytes modulo 256 (the check bytes of R132 and R145). -/
def sumBytes (bs : List Byte) : Byte := bs.foldl (· + ·) 0

@[simp] theorem tget_tset_same {α : Type} {n : Nat} (t : Vector α n) (i : Fin n) (x : α) :
    tget (tset t i x) i = x := by simp [tget, tset]

theorem tget_tset_ne {α : Type} {n : Nat} (t : Vector α n) {i j : Fin n} (x : α) (h : i ≠ j) :
    tget (tset t i x) j = tget t j := by
  simp [tget, tset, Fin.val_ne_of_ne h]

theorem tget_tset {α : Type} {n : Nat} (t : Vector α n) (i j : Fin n) (x : α) :
    tget (tset t i x) j = if i = j then x else tget t j := by
  by_cases h : i = j
  · subst h; simp
  · simp [h, tget_tset_ne t x h]

@[simp] theorem tget_replicate {α : Type} {n : Nat} (x : α) (i : Fin n) :
    tget (Vector.replicate n x) i = x := by simp [tget]

end Sys2Proof
end

