-- ==== Sys2Proof/Syntax.lean ====
section
/-! DEFINITION. The commands of the DV-12: one constructor for each row of spec/opcode_table.json, with the row's
operands.  A row that stands for a host write carries what the host writes; a row that stands for a taken cell
carries the directory entry of its area and the fields of the cell; a row that stands for an event of the part's
surroundings carries what the surroundings give (a raw sample, a read-back byte, a count of clocks). -/

namespace Sys2Proof

/-- One host write cycle on the memory port, at a host offset 0x0000 to 0x3FFF (R153): one byte, both byte enables
asserted (the low lane's byte, then the high lane's), or neither asserted. -/
inductive HostWrite where
  /-- A one-byte access. -/
  | byte (off : BitVec 14) (data : Byte)
  /-- A cycle with both byte enables asserted: an aligned pair at an even offset; at an odd offset it is taken as a
  one-byte access to that offset, whose byte is on the high lane. -/
  | wide (off : BitVec 14) (lo hi : Byte)
  /-- A cycle with neither byte enable asserted. -/
  | idle (off : BitVec 14)
  deriving DecidableEq, Repr

/-- What the panel drives in one switch sample (R124). -/
structure SwitchLevels where
  /-- Byte d gives the levels of SWS0 to SWS7 while SWDd is driven low: bit s is set when SWSs is high. -/
  sense : Vector Byte 8
  /-- The levels of PDL0 and PDL1. -/
  pedals : BitVec 2
  deriving DecidableEq, Repr

/-- The commands: every row of spec/opcode_table.json. -/
inductive Instr where
  /-- DEVICE_RESET: power-on or the RESET pin.  With `held` set RESET goes low, and the part is held in reset from then
  on; clear, which is what the bare name means, device reset ends, whether RESET was held before or the reset is taken
  as one event (R171, R207). -/
  | deviceReset (held : Bool := false)
  /-- RUN: the host writes 0x01 to CONTROL. -/
  | run
  /-- RESTART: the host writes 0x02 to CONTROL. -/
  | restart
  /-- SUMMARY_ECHO: the host writes one byte of SUMMARY, the high byte (0x3FF2) or the low one (0x3FF1). -/
  | summaryEcho (high : Bool) (data : Byte)
  /-- ENABLE_WRITE: the host writes one byte of ENABLE, the high byte (0x3FF4) or the low one (0x3FF3). -/
  | enableWrite (high : Bool) (data : Byte)
  /-- HOST_MEMORY_WRITE: one host write cycle. -/
  | hostMemoryWrite (w : HostWrite)
  /-- ARRIVAL: the host writes POSTED into the mark at area `n`'s examine position, alone or with the byte after it. -/
  | arrival (n : AreaId) (other : Option Byte)
  /-- LOOK: the look of area `n` that follows an advance or RUN entry. -/
  | look (n : AreaId)
  /-- KEY_ON: the take of a KEY_ON cell of NOTE area `n`. -/
  | keyOn (n : AreaId) (part key velocity source : Byte)
  /-- KEY_OFF: the take of a KEY_OFF cell of NOTE area `n`. -/
  | keyOff (n : AreaId) (part key source : Byte)
  /-- BEND: the take of a BEND cell of NOTE area `n`. -/
  | bend (n : AreaId) (part : Byte) (value : BitVec 16) (source : Byte)
  /-- PEDAL: the take of a PEDAL cell of NOTE area `n`. -/
  | pedal (n : AreaId) (part velocity source : Byte)
  /-- ALL_OFF: the take of an ALL_OFF cell of NOTE area `n`. -/
  | allOff (n : AreaId) (part source : Byte)
  /-- SET_PARAM: the take of such a cell of REQUEST area `n`; so for the request rows that follow. -/
  | setParam (n : AreaId) (id : Byte) (value : BitVec 16)
  /-- SET_VOICING. -/
  | setVoicing (n : AreaId) (part : Byte) (block : Vector Byte 8)
  /-- SET_KEYBOARD. -/
  | setKeyboard (n : AreaId) (mode split : Byte) (map : BitVec 16)
  /-- SELECT_EDIT. -/
  | selectEdit (n : AreaId) (part : Byte)
  /-- MAP_KNOB. -/
  | mapKnob (n : AreaId) (knob target mode : Byte)
  /-- MAP_SWITCH. -/
  | mapSwitch (n : AreaId) (switch func : Byte)
  /-- PART_EXPORT. -/
  | partExport (n : AreaId) (part : Byte) (offset : BitVec 16)
  /-- PART_IMPORT. -/
  | partImport (n : AreaId) (part : Byte) (offset : BitVec 16)
  /-- CLEAR_RANGE. -/
  | clearRange (n : AreaId) (mask : BitVec 24)
  /-- TUNE. -/
  | tune (n : AreaId) (oscMask : BitVec 32) (anchorMask : BitVec 16) (mode background : Byte)
  /-- TUNE_ABORT. -/
  | tuneAbort (n : AreaId)
  /-- RECALL. -/
  | recall (n : AreaId) (slot part : Byte)
  /-- STORE. -/
  | store (n : AreaId) (part slot flags : Byte)
  /-- ERASE_SLOT. -/
  | eraseSlot (n : AreaId) (slot : Byte)
  /-- SLOT_INFO. -/
  | slotInfo (n : AreaId) (slot : Byte)
  /-- STORE_CAL. -/
  | storeCal (n : AreaId)
  /-- REVERT_CAL. -/
  | revertCal (n : AreaId)
  /-- STORE_STATUS. -/
  | storeStatus (n : AreaId)
  /-- PROGRAM_COMPLETION: the program step in progress completes; `readBack` is what its byte reads as. -/
  | programCompletion (readBack : Byte)
  /-- ERASE_COMPLETION: the erase in progress completes; `residue` lists the bytes of the page (offset, value) that do
  not read 0xFF, offsets rising. -/
  | eraseCompletion (residue : List (Fin 512 × Byte))
  /-- READ_COMPLETION: the read step in progress completes. -/
  | readCompletion
  /-- LOAD: the end of the 24-bit shift. -/
  | load
  /-- CHANNEL_WRITTEN: the falling edge of SHSTB. -/
  | channelWritten
  /-- GAP_EXPIRY: the gap timer of voice `v` has run for the gate gap. -/
  | gapExpiry (v : VoiceId)
  /-- HOLD_EXPIRY: the hold timer of voice `v` has run for the gate hold. -/
  | holdExpiry (v : VoiceId)
  /-- GLIDE_EXPIRY: the glide interval timer expires. -/
  | glideExpiry
  /-- SETTLE_EXPIRY: the settle timer of measure channel `c` has run for the settle time. -/
  | settleExpiry (c : CardId)
  /-- MEASUREMENT_COMPLETION: the last rising edge of the count of channel `c`, `clocks` reference clocks after the
  edge before it. -/
  | measurementCompletion (c : CardId) (clocks : Nat)
  /-- NO_SIGNAL: the counter of channel `c` reaches 1,048,575. -/
  | noSignal (c : CardId)
  /-- KNOB_SCAN_EXPIRY: the knob scan timer expires. -/
  | knobScanExpiry
  /-- KNOB_SAMPLE: the conversion of the pass's next knob completes with the raw value. -/
  | knobSample (raw : ParamVal)
  /-- SWITCH_SAMPLE: one switch sample, with the levels the panel drives in it. -/
  | switchSample (levels : SwitchLevels)
  /-- ROOM_EVENT: the host writes EMPTY into the mark at area `n`'s fill position, alone or with the byte after it. -/
  | roomEvent (n : AreaId) (other : Option Byte)
  /-- TIN_RISING_EDGE: a rising edge on TINc, `clocks` reference clocks after the event before it (an edge, or the
  settle expiry). -/
  | tinRisingEdge (c : CardId) (clocks : Nat)
  deriving DecidableEq, Repr

end Sys2Proof
end

