-- ==== Sys2Proof/Config.lean ====
section
/-! DEFINITION. What the part fixes by number, and the values the spec leaves open.  The open values are opaque: no
proof can see them. -/

namespace Sys2Proof.Config

/-- The size of common memory (terms: Common memory). -/
def memSize : Nat := 8192
/-- What a byte of common memory reads before anything writes it: the zero-fill of device reset (R171). -/
def memFill : Byte := 0x00
/-- The size of the flash store: 64 pages of 512 bytes (R130). -/
def flashSize : Nat := 32768
/-- The size of a flash page (R130). -/
def pageSize : Nat := 512
/-- What an erased flash byte reads (R130). -/
def erased : Byte := 0xFF
/-- The jump queue holds at most this many entries (R66). -/
def jumpDepth : Nat := 32
/-- A held-key list holds at most this many entries (R34). -/
def heldDepth : Nat := 16
/-- The store queue holds at most this many entries (R139). -/
def queueDepth : Nat := 4
/-- The measure counter's limit (R78). -/
def countLimit : Nat := 1048575
/-- The read-only threshold: fewer usable patch pages than this (R138). -/
def usableMin : Nat := 32
/-- An erase count stays at this value (R131). -/
def eraseCountMax : Nat := 16777215

/-- OPEN VALUE. What a byte reads whose program step a device reset cut off, on the `seed`-th such occasion
(log 3). -/
opaque cutProgramByte (seed : Nat) : Byte
/-- OPEN VALUE. What the byte at an offset of a page reads whose erase a device reset cut off (log 3). -/
opaque cutEraseByte (seed offset : Nat) : Byte
/-- OPEN VALUE. The code the DAC holds after a device reset cut off the shift of a word (log 4). -/
opaque cutShiftCode (seed : Nat) : Code
/-- OPEN VALUE. The code a channel holds after a device reset cut off its strobe (log 4). -/
opaque cutStrobeCode (seed : Nat) : Code
/-- OPEN VALUE. The level of DAC_DATA while DAC_CS is high, outside reset, after the word of a code has gone out, in one
of the 48 half-periods that a shift would take (log 31). -/
opaque dataAtRest (seed code half : Nat) : Bool

end Sys2Proof.Config
end

