-- ==== Sys2Proof/Machine/State.lean ====
section
/-! DEFINITION. The state of the DV-12, block by block as spec/00_scope.md lists the blocks, with the values after
device reset; the faults and refusals of a step. -/

namespace Sys2Proof.Machine

/-- Why a step stops with a fault: nothing does.  Every command of the DV-12 has an effect, or is disregarded, by a
rule of the spec, so the type has no constructor. -/
inductive Fault where
  deriving DecidableEq, Repr

/-- Why a command is refused. -/
inductive Refusal where
  /-- Raised by `exec` alone, for a command without a meaning yet.  Safe. -/
  | notModelled (mnemonic : String)
  deriving DecidableEq, Repr

/-! ### Small types -/

/-- The two sound contexts (terms: Part). -/
inductive Part where
  | A | B
  deriving DecidableEq, Repr

/-- One value for each part. -/
structure PerPart (α : Type) where
  a : α
  b : α
  deriving DecidableEq, Repr

/-- The device states (R155), and `held` while RESET is held low, when the part has no port to show a state (R207). -/
inductive DeviceState where
  | held | starting | setup | run
  deriving DecidableEq, Repr

/-- The directory fault codes (R155). -/
inductive DirFault where
  | none | overlap | outOfRange | tooSmall | kindLimit | joinConflict | imageSize
  deriving DecidableEq, Repr

/-- The kinds of area (R159); an entry of kind NONE describes no area. -/
inductive AreaKind where
  | note | request | report | image
  deriving DecidableEq, Repr

/-- The states of a voice (R1). -/
inductive VoiceState where
  | free | pending | on | sustained | tuning
  deriving DecidableEq, Repr

/-- The keyboard modes (R40). -/
inductive KbMode where
  | single | split | layer
  deriving DecidableEq, Repr

/-- Allocation modes (R100). -/
inductive AllocMode where
  | poly | mono | unison
  deriving DecidableEq, Repr

/-- Key priorities (R100). -/
inductive Priority where
  | last | low | high
  deriving DecidableEq, Repr

/-- Glide modes (R100). -/
inductive GlideMode where
  | off | always | legato
  deriving DecidableEq, Repr

/-- Steal settings (R100). -/
inductive StealMode where
  | oldest | none
  deriving DecidableEq, Repr

/-- Retrigger modes (R100). -/
inductive Retrigger where
  | multi | single
  deriving DecidableEq, Repr

/-- Knob modes (R111). -/
inductive KnobMode where
  | none | direct | catchMode | relative
  deriving DecidableEq, Repr

/-- What a knob addresses (R111). -/
inductive Target where
  /-- No parameter. -/
  | none
  /-- A parameter ID. -/
  | absolute (id : ParamId)
  /-- An edit-relative index. -/
  | editRelative (i : Fin 16)
  deriving DecidableEq, Repr

/-- Where a detached knob last stood against its target's value (R111). -/
inductive Side where
  | below | above
  deriving DecidableEq, Repr

/-- Switch functions (R126). -/
inductive SwitchFunc where
  | report | sustainA | sustainB | sustainBoth
  deriving DecidableEq, Repr

/-- States of a measure channel (R75). -/
inductive MeasState where
  | idle | setting | settling | counting
  deriving DecidableEq, Repr

/-- Modes of a tune job (R85). -/
inductive TuneMode where
  | full | touch
  deriving DecidableEq, Repr

/-- Causes of an anchor's failure (R84). -/
inductive Cause where
  | outOfReach | order | noSignal
  deriving DecidableEq, Repr

/-- States of a flash page in the page table (R131).  `candidate` is a head candidate, which stands only while the
start-up scan runs (R148). -/
inductive PageState where
  | erased | head | full | used | bad | candidate
  deriving DecidableEq, Repr

/-! ### The Memory Port and Area Controller -/

/-- The setup values in force (R158). -/
structure Setup where
  gateGap : Nat
  gateHold : Nat
  divider : Nat
  dwell : Nat
  targetT : Nat
  tolerance : Nat
  settle : Nat
  scanInterval : Nat
  endZone : Nat
  deadband : Nat
  debounce : Nat
  eraseCode : Nat
  deriving DecidableEq, Repr

/-- One recorded area (R162): its kind, its bounds in 4-byte units, its cell count, its joins (bit 0 PANEL, 1 TUNE,
2 VOICE, 3 FAULT), its examine or fill position, and whether a look at its examine position is due (R164, R165). -/
structure Area where
  kind : AreaKind
  start : Nat
  stop : Nat
  count : Nat
  joins : BitVec 4
  pos : Nat
  lookDue : Bool
  deriving DecidableEq, Repr

/-- The MPA's state: the device state, the result of the latest RUN attempt, the setup values in force, the area
table, SUMMARY and ENABLE (bits 0 to 8; R167, R168). -/
structure Mpa where
  device : DeviceState
  faultCode : DirFault
  faultEntry : AreaId
  setup : Setup
  areas : Vector (Option Area) 8
  summary : BitVec 9
  enable : BitVec 9
  deriving DecidableEq, Repr

/-! ### The Note Router -/

/-- An entry of a held-key list (R34). -/
structure HeldKey where
  key : Key
  velocity : Velocity
  deriving DecidableEq, Repr

/-- The NRT's state (R34, R37, R38, R40): held-key lists oldest first, pedals (true is down), bends. -/
structure Nrt where
  mode : KbMode
  split : Key
  map : BitVec 12
  held : PerPart (List HeldKey)
  pedal : PerPart Bool
  bend : PerPart Int
  deriving DecidableEq, Repr

/-! ### The Voice Allocator -/

/-- A voice record (R1). -/
structure Voice where
  state : VoiceState
  part : Part
  key : Option Key
  velocity : Velocity
  onset : BitVec 32
  c : Pitch
  unison : VoiceId
  aWritten : Bool
  bWritten : Bool
  offDeferred : Bool
  glideActive : Bool
  dynA : Bool
  stickyA : Bool
  dynB : Bool
  stickyB : Bool
  gapRunning : Bool
  holdRunning : Bool
  deriving DecidableEq, Repr

/-- The VAL's state (R1, R2): the voice table, the free, busy and tune lists, the onset counter and the unison group
sizes. -/
structure Val where
  voices : Vector Voice 12
  free : List VoiceId
  busy : List VoiceId
  tune : List VoiceId
  onset : BitVec 32
  group : PerPart (Fin 13)
  deriving DecidableEq, Repr

/-! ### The Refresh Engine -/

/-- An override entry (R68). -/
structure Override where
  code : Code
  stamp : BitVec 16
  deriving DecidableEq, Repr

/-- The slot in progress (R62, R65): its channel, the code, onset and stamp of its compute phase, the divider and
dwell it began with (R64), and whether its strobe has begun. -/
structure Slot where
  chan : ChanId
  code : Code
  onset : Option (BitVec 32)
  stamp : Option (BitVec 16)
  divider : Nat
  dwell : Nat
  strobing : Bool
  deriving DecidableEq, Repr

/-- The RFE's state (R72), the address lines SHA0 to SHA6, the code the DAC holds and the code each channel of the
sample-and-hold bank holds (R60, R62).  There is no slot only until the first slot begins. -/
structure Rfe where
  round : ChanId
  jump : List ChanId
  overrides : Vector (Option Override) 24
  stamp : BitVec 16
  slot : Option Slot
  sha : ChanId
  dacOut : Code
  cv : Vector Code 128
  deriving DecidableEq, Repr

/-! ### The Tuner -/

/-- A measure channel (R75, R78).  `rest` lists the oscillator's selected anchors still to come after `anchor`;
`periods` is none while the channel waits for the first edge and counts periods after it; `counter` is the 20-bit
counter as it stood at the channel's latest event. -/
structure MeasChan where
  state : MeasState
  osc : Option OscId
  voice : Option VoiceId
  anchor : AnchorId
  code : Code
  step : Nat
  expected : BitVec 16
  select : Fin 6
  rest : List AnchorId
  periods : Option Nat
  counter : Nat
  deriving DecidableEq, Repr

/-- An oscillator waiting in a card's pending list, with its remaining anchors, ascending (R85). -/
structure PendingOsc where
  osc : OscId
  anchors : List AnchorId
  deriving DecidableEq, Repr

/-- The first failure of a job (R84). -/
structure Failure where
  osc : OscId
  anchor : AnchorId
  cause : Cause
  deriving DecidableEq, Repr

/-- An oscillator's accepted and failed masks (R89). -/
structure TuneOutcome where
  accepted : BitVec 9
  failed : BitVec 9
  deriving DecidableEq, Repr

/-- The tune job record (R85). -/
structure TuneJob where
  area : AreaId
  cell : Nat
  oscMask : BitVec 24
  anchorMask : BitVec 9
  mode : TuneMode
  background : Bool
  lists : Vector (List PendingOsc) 4
  accepted : Nat
  failed : Nat
  skipped : Nat
  firstFailure : Option Failure
  masks : Vector TuneOutcome 24
  deriving DecidableEq, Repr

/-- The TUN's state (R73, R75, R85, R89, and the basis of R93). -/
structure Tun where
  anchors : Vector (Vector Code 9) 24
  trust : Vector (BitVec 9) 24
  basis : Option Nat
  job : Option TuneJob
  chans : Vector MeasChan 4
  outcomes : Vector TuneOutcome 24
  deriving DecidableEq, Repr

/-! ### The Parameter Block -/

/-- A voicing block (R100). -/
structure Voicing where
  mode : AllocMode
  count : Nat
  priority : Priority
  glide : GlideMode
  bendRange : Nat
  transpose : Int
  steal : StealMode
  restore : Bool
  retrigger : Retrigger
  deriving DecidableEq, Repr

/-- The PRB's state (R110). -/
structure Prb where
  params : Vector ParamVal 40
  voicing : PerPart Voicing
  name : PerPart (Vector Byte 16)
  edit : Part
  deriving DecidableEq, Repr

/-! ### The Panel Scanner -/

/-- A knob record (R111). -/
structure Knob where
  last : ParamVal
  mode : KnobMode
  target : Target
  detached : Bool
  side : Side
  deriving DecidableEq, Repr

/-- A pass in progress (R113): whether it is the baseline pass, and the knob whose sample comes next. -/
structure Pass where
  baseline : Bool
  next : KnobId
  deriving DecidableEq, Repr

/-- A switch (R125, R126): its debounced state (true is CLOSED), its debounce count and its function. -/
structure Switch where
  closed : Bool
  count : Nat
  func : SwitchFunc
  deriving DecidableEq, Repr

/-- The PSC's state (R129); `armed` is the interval in ms the knob scan timer is armed with. -/
structure Psc where
  knobs : Vector Knob 48
  pass : Option Pass
  armed : Nat
  switches : Vector Switch 66
  deriving DecidableEq, Repr

/-! ### The Patch Store and the store queue -/

/-- A page table entry (R131); `headerOk` is clear for a page left with an incomplete header (R135, R136). -/
structure PageEntry where
  state : PageState
  eraseCount : Nat
  seq : BitVec 16
  writePos : Nat
  headerOk : Bool
  deriving DecidableEq, Repr

/-- Where a record stands: page and offset (R133). -/
structure Loc where
  page : PageId
  off : Nat
  deriving DecidableEq, Repr

/-- A patch record's bytes but for its markers (R132, R205); `length` is in 4-byte units. -/
structure PatchRec where
  slot : Byte
  flags : Byte
  length : Nat
  origin : Byte
  check : Byte
  body : List Byte
  deriving DecidableEq, Repr

/-- What a program step's byte is, which decides what its completion does (R131 to R136, R145, R146). -/
inductive ByteRole where
  /-- A byte of a page header; `last` marks IN_USE, which commits it. -/
  | header (last : Bool)
  /-- The FULL byte of a patch page. -/
  | full
  /-- OPEN of a patch record of `units` 4-byte units. -/
  | recOpen (units : Nat)
  /-- The length byte of a patch record. -/
  | recLength
  /-- Any other byte of a patch record before SEALED. -/
  | recByte
  /-- SEALED of the patch record of a slot, which begins at `base`. -/
  | recSealed (slot : SlotId) (base : Nat)
  /-- RETIRED of a superseded record. -/
  | retired
  /-- A byte of a calibration record before SEALED. -/
  | calByte
  /-- SEALED of a calibration record. -/
  | calSealed
  deriving DecidableEq, Repr

/-- The flash step in progress (R130); an erase keeps the duration in ms it began with. -/
inductive FlashStep where
  | program (page : PageId) (off : Nat) (value : Byte) (role : ByteRole)
  | erase (page : PageId) (ms : Nat)
  | read (page : PageId) (off len : Nat)
  deriving DecidableEq, Repr

/-- A byte still to be programmed, with its offset in the page. -/
structure TodoByte where
  off : Nat
  value : Byte
  role : ByteRole
  deriving DecidableEq, Repr

/-- What the operation in service does (R140 to R147), or the start-up scan (R148 to R150). -/
inductive StoreOp where
  /-- STORE or ERASE_SLOT: a record to be placed and programmed. -/
  | write (record : PatchRec)
  /-- RECALL of the record at a place, for the request's part code. -/
  | recall (part : Byte) (loc : Loc)
  /-- SLOT_INFO of the record at a place. -/
  | info (loc : Loc)
  /-- STORE_CAL: the ring pages not tried yet, in ring order. -/
  | storeCal (ring : List PageId)
  /-- REVERT_CAL: the older pages not read yet, newest first. -/
  | revertCal (older : List PageId)
  /-- The start-up scan. -/
  | scan
  deriving DecidableEq, Repr

/-- What the step in progress is to the operation in service. -/
inductive Phase where
  /-- The step in progress was left by a RESTART: the operation begins at its completion (R139). -/
  | waiting
  /-- A byte of a record is being programmed; `todo` follows it. `copy` marks a reclaim's copy. -/
  | record (copy : Bool) (todo : List TodoByte)
  /-- The head's FULL byte is being programmed; `lost` marks a copy that a bad OPEN or length byte ended. -/
  | markFull (lost : Bool)
  /-- A header byte of a page is being programmed; `todo` follows it. -/
  | opening (page : PageId) (todo : List TodoByte)
  /-- The RETIRED byte of the superseded record is being programmed. -/
  | retiring
  /-- A record of the victim is being read for its copy. -/
  | copyRead (loc : Loc)
  /-- The victim is being erased. -/
  | erasing
  /-- The record of a RECALL or SLOT_INFO is being read. -/
  | recordRead
  /-- The target of a STORE_CAL is being erased. -/
  | calErase (page : PageId)
  /-- A byte of a calibration record is being programmed; `todo` follows it. -/
  | calRecord (page : PageId) (todo : List TodoByte)
  /-- A calibration page is being read; the pages that follow it, newest first. -/
  | calRead (page : PageId) (rest : List PageId)
  /-- The scan reads a page's header. -/
  | scanHeader (page : PageId)
  /-- The scan reads a whole page. -/
  | scanWhole (page : PageId)
  /-- The scan erases a page it could not classify. -/
  | scanErase (page : PageId)
  /-- The scan reads a page to be walked; the pages after it. -/
  | walkRead (page : PageId) (rest : List PageId)
  /-- The walk programs a byte: RETIRED of the record that the one at `base` supersedes, or, with no base, FULL of a
  page it cannot walk further; the pages after it. -/
  | walkProgram (page : PageId) (base : Option Nat) (rest : List PageId)
  /-- The scan programs the FULL byte of a head candidate that is not the newest; the candidates after it. -/
  | headFull (rest : List PageId)
  deriving DecidableEq, Repr

/-- The operation in service: what it does, its step, the victim of its reclaim round, its read-back mismatches. -/
structure Service where
  op : StoreOp
  phase : Phase
  victim : Option PageId
  mismatches : Nat
  deriving DecidableEq, Repr

/-- The PST's state (R152). -/
structure Pst where
  pages : Vector PageEntry 64
  index : Vector (Option Loc) 200
  seqPatch : BitVec 16
  seqCal : BitVec 16
  currentCal : Option PageId
  readOnly : Bool
  step : Option FlashStep
  service : Option Service
  buffer : List Byte
  deriving DecidableEq, Repr

/-- A store-class request's kind and copied arguments (R178). -/
inductive StoreReq where
  | recall (slot : SlotId) (part : Byte)
  | store (part : Part) (slot : SlotId) (name voicing : Bool)
  | eraseSlot (slot : SlotId)
  | slotInfo (slot : SlotId)
  | storeCal
  | revertCal
  deriving DecidableEq, Repr

/-- A store queue entry (R178). -/
structure StoreEntry where
  req : StoreReq
  area : AreaId
  cell : Nat
  deriving DecidableEq, Repr

/-- The RQU's state: the store queue, head first (R139). -/
structure Rqu where
  queue : List StoreEntry
  deriving DecidableEq, Repr

/-! ### The Report Unit -/

/-- The content of a NOTE_FAULT report (R187). -/
structure FaultReport where
  index : Nat
  value : Nat
  aux : Nat
  deriving DecidableEq, Repr

/-- The RPU's state (R186, R188): the joined area of each class, the pending flags and the fault slot. -/
structure Rpu where
  panelArea : Option AreaId
  tuneArea : Option AreaId
  voiceArea : Option AreaId
  faultArea : Option AreaId
  knobs : Vector Bool 48
  switches : Vector Bool 66
  oscs : Vector Bool 24
  fault : Option FaultReport
  deriving DecidableEq, Repr

/-- The state of the part: its blocks, common memory and the flash store as lists of the bytes that differ from what
an unlisted address reads, the count of open values used so far (the model's own field, log 3), and the commands
waiting, first in first out. -/
structure State where
  mpa : Mpa
  rqu : Rqu
  nrt : Nrt
  val : Val
  rfe : Rfe
  tun : Tun
  prb : Prb
  psc : Psc
  pst : Pst
  rpu : Rpu
  mem : List Host.Cell
  flash : List Host.Cell
  openUsed : Nat
  pending : List Instr
  deriving DecidableEq, Repr

/-! ### The values after device reset -/

/-- The setup values in force after device reset (R158). -/
def Setup.reset : Setup where
  gateGap := 1
  gateHold := 2
  divider := 0
  dwell := 8
  targetT := 244624
  tolerance := 141
  settle := 6
  scanInterval := 2
  endZone := 6
  deadband := 8
  debounce := 4
  eraseCode := 6

/-- A voice record after device reset (R1). -/
def Voice.reset : Voice where
  state := .free
  part := .A
  key := none
  velocity := 0
  onset := 0
  c := 15360
  unison := 0
  aWritten := false
  bWritten := false
  offDeferred := false
  glideActive := false
  dynA := false
  stickyA := false
  dynB := false
  stickyB := false
  gapRunning := false
  holdRunning := false

/-- The voicing block after device reset (R100). -/
def Voicing.reset : Voicing where
  mode := .poly
  count := 2
  priority := .last
  glide := .off
  bendRange := 2
  transpose := 0
  steal := .oldest
  restore := false
  retrigger := .multi

/-- The nominal anchor table, 12288 + 6144k (R73). -/
def nominalTable : Vector Code 9 := #v[12288, 18432, 24576, 30720, 36864, 43008, 49152, 55296, 61440]

/-- A measure channel after device reset (R75); the fields R75 gives no reset value are 0 (log 5). -/
def MeasChan.reset : MeasChan where
  state := .idle
  osc := none
  voice := none
  anchor := 0
  code := 0
  step := 0
  expected := 0
  select := 0
  rest := []
  periods := none
  counter := 0

/-- A page table entry before the start-up scan classifies the page (log 6). -/
def PageEntry.unread : PageEntry where
  state := .erased
  eraseCount := 0
  seq := 0
  writePos := 8
  headerOk := true

/-- The switch map after device reset (R127): 0 to 63 REPORT, 64 SUSTAIN_A, 65 SUSTAIN_B. -/
def Switch.reset (func : SwitchFunc) : Switch where
  closed := false
  count := 0
  func := func

/-- Every field at the value the chapters' reset tables give (R1, R42, R59, R72, R95, R110, R129, R152, R171, R188),
before the Refresh Engine begins its first slot and the Patch Store its start-up scan.  The flash is blank and the DAC
and the sample-and-hold channels hold code 0: the spec gives them no value at power-on (logs 1 and 2).  R152 gives
none for the page table before the scan and for the store's buffer: the model's choice (log 6). -/
def State.resetValues : State where
  mpa :=
    { device := .starting, faultCode := .none, faultEntry := 0, setup := Setup.reset,
      areas := Vector.replicate 8 none, summary := 0, enable := 0 }
  rqu := { queue := [] }
  nrt :=
    { mode := .single, split := 60, map := 0, held := ⟨[], []⟩, pedal := ⟨false, false⟩, bend := ⟨0, 0⟩ }
  val :=
    { voices := Vector.replicate 12 Voice.reset, free := [0, 1, 2, 3, 4, 5, 6, 7, 8, 9, 10, 11], busy := [],
      tune := [], onset := 0, group := ⟨0, 0⟩ }
  rfe :=
    { round := 0, jump := [], overrides := Vector.replicate 24 none, stamp := 0, slot := none, sha := 0,
      dacOut := 0, cv := Vector.replicate 128 0 }
  tun :=
    { anchors := Vector.replicate 24 nominalTable, trust := Vector.replicate 24 0, basis := none, job := none,
      chans := Vector.replicate 4 MeasChan.reset, outcomes := Vector.replicate 24 ⟨0, 0⟩ }
  prb :=
    { params := Vector.replicate 40 2048, voicing := ⟨Voicing.reset, Voicing.reset⟩,
      name := ⟨Vector.replicate 16 0x20, Vector.replicate 16 0x20⟩, edit := .A }
  psc :=
    { knobs := Vector.replicate 48 ⟨0, .none, .none, false, .below⟩, pass := none, armed := 2,
      switches := ((Vector.replicate 66 (Switch.reset .report)).set 64 (Switch.reset .sustainA)).set 65
        (Switch.reset .sustainB) }
  pst :=
    { pages := Vector.replicate 64 PageEntry.unread, index := Vector.replicate 200 none, seqPatch := 0, seqCal := 0,
      currentCal := none, readOnly := false, step := none, service := none, buffer := [] }
  rpu :=
    { panelArea := none, tuneArea := none, voiceArea := none, faultArea := none,
      knobs := Vector.replicate 48 false, switches := Vector.replicate 66 false, oscs := Vector.replicate 24 false,
      fault := none }
  mem := []
  flash := []
  openUsed := 0
  pending := []

/-- The part right after device reset.  In the event that ends the reset the Refresh Engine begins its first slot,
which takes channel 0 from the round (R71; the round position moves on to 1, R61) with the code of pitch 15360 under
the nominal table, 30720 (R53), and the Patch Store takes the start-up scan's first flash step (R148), a read of page
0's header (log 7).  Every other field is at its reset value. -/
def State.reset : State :=
  { State.resetValues with
    rfe :=
      { State.resetValues.rfe with
        round := 1
        slot := some ⟨0, 30720, some 0, none, 0, 8, false⟩ }
    pst :=
      { State.resetValues.pst with
        step := some (.read 0 0 8)
        service := some ⟨.scan, .scanHeader 0, none, 0⟩ } }

end Sys2Proof.Machine
end

