-- ==== Sys2Proof/Machine/Ops.lean ====
section
/-! DEFINITION. The named operations over memory, areas and records that the blocks share: byte memories in canonical
form, common memory and flash access, cells and areas, part-indexed values, voice ownership. -/

namespace Sys2Proof.Machine

/-! ### A byte memory as a list of the bytes that differ from its fill -/

/-- Read one byte; an unlisted address reads the fill. -/
def Memory.read (fill : Byte) : List Host.Cell → Nat → Byte
  | [], _ => fill
  | (k, b) :: m, a => if a = k then b else Memory.read fill m a

/-- Write one byte, keeping the canonical form: writing the fill takes the entry out. -/
def Memory.write (fill : Byte) : List Host.Cell → Nat → Byte → List Host.Cell
  | [], a, x => if x = fill then [] else [(a, x)]
  | (k, b) :: m, a, x =>
    if a < k then (if x = fill then (k, b) :: m else (a, x) :: (k, b) :: m)
    else if a = k then (if x = fill then m else (a, x) :: m)
    else (k, b) :: Memory.write fill m a x

/-- The canonical form: addresses strictly rising below `size`, and no entry equal to the fill. -/
def Memory.wf (fill : Byte) (size : Nat) : List Host.Cell → Bool
  | [] => true
  | (k, b) :: m =>
    decide (k < size) && b != fill && (match m with | [] => true | (k', _) :: _ => decide (k < k'))
      && Memory.wf fill size m

/-! ### Common memory (R153, R171) -/

/-- A byte of common memory. -/
def State.peek (s : State) (a : Nat) : Byte := Memory.read Config.memFill s.mem a

/-- Write a byte of common memory; there is none at 0x2000 or above. -/
def State.poke (s : State) (a : Nat) (x : Byte) : State :=
  if a < Config.memSize then { s with mem := Memory.write Config.memFill s.mem a x } else s

/-- Write a run of bytes of common memory. -/
def State.pokes (s : State) (a : Nat) : List Byte → State
  | [] => s
  | b :: bs => (s.poke a b).pokes (a + 1) bs

/-- A run of bytes of common memory. -/
def State.peeks (s : State) (a : Nat) : Nat → List Byte
  | 0 => []
  | n + 1 => s.peek a :: s.peeks (a + 1) n

/-- A little-endian number of `n` bytes of common memory. -/
def State.peekLe (s : State) (a n : Nat) : Nat := ofLe (s.peeks a n)

/-! ### The flash store (R130) -/

/-- The address of a byte of a page. -/
def flashAddr (p : PageId) (off : Nat) : Nat := p.val * Config.pageSize + off

/-- A byte of flash. -/
def State.flashByte (s : State) (p : PageId) (off : Nat) : Byte := Memory.read Config.erased s.flash (flashAddr p off)

/-- Set a byte of flash; a page has none at offset 512 or above. -/
def State.setFlash (s : State) (p : PageId) (off : Nat) (x : Byte) : State :=
  if off < Config.pageSize then { s with flash := Memory.write Config.erased s.flash (flashAddr p off) x } else s

/-- A run of bytes of a flash page. -/
def State.flashBytes (s : State) (p : PageId) (off : Nat) : Nat → List Byte
  | 0 => []
  | n + 1 => s.flashByte p off :: s.flashBytes p (off + 1) n

/-- Take every byte of a page out of the list: the page reads 0xFF throughout. -/
def State.blankPage (s : State) (p : PageId) : State :=
  { s with flash := s.flash.filter fun c => !(decide (flashAddr p 0 ≤ c.1) && decide (c.1 < flashAddr p 512)) }

/-! ### Values held per part -/

/-- The value of a part. -/
def PerPart.get {α : Type} (x : PerPart α) : Part → α
  | .A => x.a
  | .B => x.b

/-- Replace the value of a part. -/
def PerPart.put {α : Type} (x : PerPart α) (p : Part) (v : α) : PerPart α :=
  match p with
  | .A => { x with a := v }
  | .B => { x with b := v }

/-- The part code of a part: 1 for A, 2 for B. -/
def Part.code : Part → Byte
  | .A => 1
  | .B => 2

/-- The part a part code of 1 or 2 names (R102, R106). -/
def partOfCode (b : Byte) : Option Part :=
  if b = 1 then some .A else if b = 2 then some .B else none

/-! ### Voices, oscillators, channels -/

/-- The twelve voices in ascending order. -/
def allVoices : List VoiceId := List.finRange 12

/-- The four cards in ascending order. -/
def allCards : List CardId := List.finRange 4

/-- The eight directory entries in ascending order. -/
def allAreas : List AreaId := List.finRange 8

/-- Channel 10v + f carries function f of voice v (R60). -/
def chanOf (v : VoiceId) (f : Fin 10) : ChanId := ⟨10 * v.val + f.val, by omega⟩

/-- Oscillator 2v is voice v's A oscillator and 2v + 1 its B oscillator. -/
def oscVoice (o : OscId) : VoiceId := ⟨o.val / 2, by omega⟩

/-- A voice's two oscillators. -/
def oscA (v : VoiceId) : OscId := ⟨2 * v.val, by omega⟩
/-- A voice's B oscillator. -/
def oscB (v : VoiceId) : OscId := ⟨2 * v.val + 1, by omega⟩

/-- The other oscillator of the same voice (R88). -/
def sibling (o : OscId) : OscId := if o.val % 2 = 0 then oscB (oscVoice o) else oscA (oscVoice o)

/-- Card c owns oscillators 6c to 6c + 5. -/
def oscCard (o : OscId) : CardId := ⟨o.val / 6, by omega⟩

/-- Card c holds voices 3c to 3c + 2. -/
def voiceCard (v : VoiceId) : CardId := ⟨v.val / 3, by omega⟩

/-- The pitch channel of an oscillator: 10v for 2v and 10v + 1 for 2v + 1 (R76). -/
def pitchChan (o : OscId) : ChanId := ⟨10 * (o.val / 2) + o.val % 2, by omega⟩

/-- The oscillator whose pitch a channel carries, if it is a pitch channel (R60). -/
def chanOsc (n : ChanId) : Option OscId :=
  if h : n.val < 120 ∧ n.val % 10 < 2 then some ⟨2 * (n.val / 10) + n.val % 10, by omega⟩ else none

/-- The voice of a voice channel (R60). -/
def chanVoice (n : ChanId) : Option VoiceId := if h : n.val < 120 then some ⟨n.val / 10, by omega⟩ else none

/-- The parameter ID of P`i` of a part (R96). -/
def partParam (p : Part) (i : Fin 16) : ParamId :=
  match p with
  | .A => ⟨i.val, by omega⟩
  | .B => ⟨16 + i.val, by omega⟩

/-- P`i` of a part. -/
def State.param (s : State) (p : Part) (i : Fin 16) : Nat := (tget s.prb.params (partParam p i)).val

/-- G`i` (R96: IDs 32 to 39). -/
def State.global (s : State) (i : Fin 8) : Nat := (tget s.prb.params ⟨32 + i.val, by omega⟩).val

/-- The record of a voice. -/
def State.voice (s : State) (v : VoiceId) : Voice := tget s.val.voices v

/-- A voice's gate is open while it is ON or SUSTAINED (R3). -/
def VoiceState.gate : VoiceState → Bool
  | .on | .sustained => true
  | .free | .pending | .tuning => false

/-- A voice in state PENDING, ON or SUSTAINED is busy (R2). -/
def VoiceState.busy : VoiceState → Bool
  | .pending | .on | .sustained => true
  | .free | .tuning => false

/-- The gate pin of a voice (R70). -/
def State.gatePin (s : State) (v : VoiceId) : Bool := (s.voice v).state.gate

/-- The busy voices of a part in busy-list order (R2, R4). -/
def State.busyOf (s : State) (p : Part) : List VoiceId := s.val.busy.filter fun v => (s.voice v).part = p

/-- The busy voices of a part in ascending voice number. -/
def State.busyAscending (s : State) (p : Part) : List VoiceId :=
  allVoices.filter fun v => (s.voice v).part = p && (s.voice v).state.busy

/-- The FREE voices a part owns, in free-list order (R2, R4). -/
def State.freeOf (s : State) (p : Part) : List VoiceId := s.val.free.filter fun v => (s.voice v).part = p

/-- The FREE voices a part owns, in ascending voice number. -/
def State.freeAscending (s : State) (p : Part) : List VoiceId :=
  allVoices.filter fun v => (s.voice v).part = p && (s.voice v).state = .free

/-- The part's voicing block. -/
def State.voicing (s : State) (p : Part) : Voicing := s.prb.voicing.get p

/-- The part's held-key list. -/
def State.held (s : State) (p : Part) : List HeldKey := s.nrt.held.get p

/-! ### Areas and cells (R159, R162, R164, R166) -/

/-- The size of a cell of an area (R159). -/
def AreaKind.cellSize : AreaKind → Nat
  | .request => 32
  | .note | .report | .image => 8

/-- An area while the part is in RUN: areas are active only there (R155). -/
def State.active (s : State) (n : AreaId) : Option Area :=
  if s.mpa.device = .run then tget s.mpa.areas n else none

/-- The first byte of cell `i` of an area (R159). -/
def Area.cellAddr (a : Area) (i : Nat) : Nat := 4 * a.start + i * a.kind.cellSize

/-- The next cell of a ring (R164, R166). -/
def Area.nextPos (a : Area) : Nat := if a.pos + 1 < a.count then a.pos + 1 else 0

/-- Replace the record of an area. -/
def State.setArea (s : State) (n : AreaId) (a : Area) : State :=
  { s with mpa := { s.mpa with areas := tset s.mpa.areas n (some a) } }

/-- Marks (R163). -/
def markEmpty : Byte := 0x00
/-- POSTED. -/
def markPosted : Byte := 0xA5
/-- TAKEN. -/
def markTaken : Byte := 0xC3
/-- DONE. -/
def markDone : Byte := 0x3C
/-- FULL. -/
def markFull : Byte := 0x96

/-! ### Blocks -/

/-- Replace the voice allocator's state. -/
def State.withVal (s : State) (x : Val) : State := { s with val := x }
/-- Replace the refresh engine's state. -/
def State.withRfe (s : State) (x : Rfe) : State := { s with rfe := x }
/-- Replace the tuner's state. -/
def State.withTun (s : State) (x : Tun) : State := { s with tun := x }
/-- Replace the store's state. -/
def State.withPst (s : State) (x : Pst) : State := { s with pst := x }
/-- Replace the report unit's state. -/
def State.withRpu (s : State) (x : Rpu) : State := { s with rpu := x }
/-- Replace the panel scanner's state. -/
def State.withPsc (s : State) (x : Psc) : State := { s with psc := x }
/-- Replace the parameter block's state. -/
def State.withPrb (s : State) (x : Prb) : State := { s with prb := x }
/-- Replace the note router's state. -/
def State.withNrt (s : State) (x : Nrt) : State := { s with nrt := x }
/-- Replace the port's state. -/
def State.withMpa (s : State) (x : Mpa) : State := { s with mpa := x }

end Sys2Proof.Machine
end

