-- ==== Sys2Proof/Machine/Flags.lean ====
section
/-! DEFINITION. The port's registers and lines: SUMMARY, ENABLE, the interrupt line, the STATUS byte, and what a host
read of the window returns (R153, R155, R167 to R169, R196). -/

namespace Sys2Proof.Machine

/-- Set the attention bit of an area in SUMMARY (R167). -/
def State.attention (s : State) (n : AreaId) : State :=
  { s with mpa := { s.mpa with summary := s.mpa.summary ||| BitVec.twoPow 9 n.val } }

/-- Set SUMMARY bit 8, state change (R167). -/
def State.stateChange (s : State) : State :=
  { s with mpa := { s.mpa with summary := s.mpa.summary ||| BitVec.twoPow 9 8 } }

/-- A byte written to one half of a 9-bit register: bits 0 to 7, or bit 8; bits 9 to 15 are ignored (R168). -/
def halfWord (high : Bool) (data : Byte) : BitVec 9 :=
  if high then (data.setWidth 9) <<< 8 else data.setWidth 9

/-- A host write to one byte of SUMMARY clears the bits written as 1 in that byte (R168). -/
def State.echo (s : State) (high : Bool) (data : Byte) : State :=
  { s with mpa := { s.mpa with summary := s.mpa.summary &&& ~~~(halfWord high data) } }

/-- A host write to one byte of ENABLE stores it (R168). -/
def State.setEnable (s : State) (high : Bool) (data : Byte) : State :=
  { s with mpa :=
    { s.mpa with enable := (s.mpa.enable &&& ~~~(halfWord high 0xFF)) ||| halfWord high data } }

/-- The interrupt line is asserted exactly while SUMMARY AND ENABLE is non-zero (R169). -/
def State.interrupt (s : State) : Bool := s.mpa.summary &&& s.mpa.enable != 0

/-- The store-busy flag: the queue holds an entry or a flash step is in progress (R139). -/
def State.storeBusy (s : State) : Bool := !s.rqu.queue.isEmpty || s.pst.step.isSome

/-- The tune-active flag: a tune job exists (R155). -/
def State.tuneActive (s : State) : Bool := s.tun.job.isSome

/-- The device state's code in STATUS bits 0 and 1 (R196); held in reset the part answers no read of STATUS. -/
def DeviceState.code : DeviceState → Nat
  | .held | .starting => 0
  | .setup => 1
  | .run => 2

/-- The directory fault codes (R155). -/
def DirFault.code : DirFault → Nat
  | .none => 0
  | .overlap => 1
  | .outOfRange => 2
  | .tooSmall => 3
  | .kindLimit => 4
  | .joinConflict => 5
  | .imageSize => 6

/-- The STATUS byte (R155, R196): in SETUP the fault code at bits 2 to 4 and the entry index at bits 5 to 7; in
STARTING and RUN store-busy, tune-active and read-only at bits 2 to 4. -/
def State.status (s : State) : Byte :=
  match s.mpa.device with
  | .setup => BitVec.ofNat 8 (1 + 4 * s.mpa.faultCode.code + 32 * s.mpa.faultEntry.val)
  | d => BitVec.ofNat 8
      (d.code + 4 * s.storeBusy.toNat + 8 * s.tuneActive.toNat + 16 * s.pst.readOnly.toNat)

/-- Whether the part answers host cycles: in every device state, but not while RESET is held low (R153, R207). -/
def State.portOpen (s : State) : Bool := s.mpa.device != .held

/-- What a host read of one byte of the window returns (R153). -/
def State.hostRead (s : State) (off : BitVec 14) : Byte :=
  let a := off.toNat
  if a < 0x2000 then s.peek a
  else if a = 0x3FF0 then s.status
  else if a = 0x3FF1 then s.mpa.summary.setWidth 8
  else if a = 0x3FF2 then (s.mpa.summary >>> 8).setWidth 8
  else if a = 0x3FF3 then s.mpa.enable.setWidth 8
  else if a = 0x3FF4 then (s.mpa.enable >>> 8).setWidth 8
  else 0x00

/-- One host read cycle at a host offset (R153): one byte, both byte enables asserted, or neither. -/
inductive HostRead where
  /-- A one-byte access. -/
  | byte (off : BitVec 14)
  /-- A cycle with both byte enables asserted: an aligned pair at an even offset, one byte at an odd offset. -/
  | wide (off : BitVec 14)
  /-- A cycle with neither byte enable asserted. -/
  | idle (off : BitVec 14)
  deriving DecidableEq, Repr

/-- The lanes of HD0 to HD15 in a read cycle: the low lane, HD0 to HD7, and the high lane, HD8 to HD15; a lane that the
part does not drive is `none` (R153, R207). -/
structure Lanes where
  low : Option Byte
  high : Option Byte
  deriving DecidableEq, Repr

/-- One byte read: even offsets stand on the low lane and odd ones on the high lane (log 15). -/
def State.byteLanes (s : State) (off : BitVec 14) : Lanes :=
  if off.toNat % 2 = 0 then ⟨some (s.hostRead off), none⟩ else ⟨none, some (s.hostRead off)⟩

/-- What the part drives on HD0 to HD15 in a read cycle (R153): one byte, an aligned pair, or no byte; high impedance
while RESET is held low (R207).  No read changes the state (log 33). -/
def State.hostReadCycle (s : State) : HostRead → Lanes
  | .byte off => if s.portOpen then s.byteLanes off else ⟨none, none⟩
  | .wide off =>
    if s.portOpen then
      if off.toNat % 2 = 0 then ⟨some (s.hostRead off), some (s.hostRead (off + 1))⟩ else s.byteLanes off
    else ⟨none, none⟩
  | .idle _ => ⟨none, none⟩

end Sys2Proof.Machine
end

