-- ==== Sys2Proof/Machine/Image.lean ====
section
/-! DEFINITION. The image writer: the bytes of every image entry, its rewrite in the event that changes its source, and
the whole image at RUN entry (R109, R191 to R194, R203). -/

namespace Sys2Proof.Machine

/-- The first byte of the image while one is active: in RUN, with an IMAGE area (R191). -/
def State.imageBase (s : State) : Option Nat :=
  allAreas.findSome? fun n =>
    match s.active n with
    | some a => if a.kind = .image then some (4 * a.start) else none
    | none => none

/-- Write an image entry, when an image is active. -/
def State.image (s : State) (off : Nat) (bytes : List Byte) : State :=
  match s.imageBase with
  | some base => s.pokes (base + off) bytes
  | none => s

/-- State codes of a voice's image entry (R203). -/
def VoiceState.code : VoiceState → Byte
  | .free => 0
  | .pending => 1
  | .on => 2
  | .sustained => 3
  | .tuning => 4

/-- The key byte of a voice's image entry: the key, or 0xFF while absent (R193). -/
def Voice.keyByte (r : Voice) : Byte :=
  match r.key with
  | some k => BitVec.ofNat 8 k.val
  | none => 0xFF

/-- The flags byte of a voice's image entry (R203). -/
def Voice.flagByte (r : Voice) : Byte :=
  BitVec.ofNat 8 (r.dynA.toNat + 2 * r.stickyA.toNat + 4 * r.dynB.toNat + 8 * r.stickyB.toNat
    + 16 * r.offDeferred.toNat + 32 * r.glideActive.toNat + 64 * r.aWritten.toNat + 128 * r.bWritten.toNat)

/-- The eight bytes of a voice's image entry (R193, R203). -/
def Voice.imageBytes (r : Voice) : List Byte :=
  [r.state.code, r.part.code, r.keyByte, BitVec.ofNat 8 r.velocity.val, r.flagByte, BitVec.ofNat 8 r.unison.val]
    ++ leBytes 2 r.c.val

/-- Write a voice record.  Its image entry is rewritten when a field that the entry carries changes (R193). -/
def State.putVoice (s : State) (v : VoiceId) (r : Voice) : State :=
  let s' := { s with val := { s.val with voices := tset s.val.voices v r } }
  if r.imageBytes = (s.voice v).imageBytes then s' else s'.image (112 + 8 * v.val) r.imageBytes

/-- The bytes of a parameter's image entry. -/
def State.paramBytes (s : State) (n : ParamId) : List Byte := leBytes 2 (tget s.prb.params n).val

/-- Rewrite a parameter's image entry (R109). -/
def State.imageParam (s : State) (n : ParamId) : State := s.image (2 * n.val) (s.paramBytes n)

/-- The image offset of a part's name (R109). -/
def Part.nameOffset : Part → Nat
  | .A => 80
  | .B => 96

/-- Rewrite a part's name entry, all sixteen bytes (R109). -/
def State.imageName (s : State) (p : Part) : State := s.image p.nameOffset (s.prb.name.get p).toList

/-- The bytes of a knob's image entry: last, side above at bit 14 and detached at bit 15 (R194, R203). -/
def Knob.imageBytes (k : Knob) : List Byte :=
  leBytes 2 (k.last.val + (if k.detached then 32768 + (if k.side = .above then 16384 else 0) else 0))

/-- Rewrite a knob's image entry (R194). -/
def State.imageKnob (s : State) (i : KnobId) : State :=
  s.image (208 + 2 * i.val) (tget s.psc.knobs i).imageBytes

/-- The bytes of an oscillator's trust-mask entry (R192, R203). -/
def State.trustBytes (s : State) (o : OscId) : List Byte := leBytes 2 (tget s.tun.trust o).toNat

/-- Write an oscillator's trust mask; its image entry is rewritten when the mask changes (R73, R192). -/
def State.putTrust (s : State) (o : OscId) (m : BitVec 9) : State :=
  if m = tget s.tun.trust o then s
  else
    let s' := { s with tun := { s.tun with trust := tset s.tun.trust o m } }
    s'.image (304 + 2 * o.val) (s'.trustBytes o)

/-- The 352 bytes of the image (R191): parameters, names, voices, knobs, trust masks. -/
def State.wholeImage (s : State) : List Byte :=
  (List.finRange 40).flatMap s.paramBytes
    ++ s.prb.name.a.toList ++ s.prb.name.b.toList
    ++ allVoices.flatMap (fun v => (s.voice v).imageBytes)
    ++ (List.finRange 48).flatMap (fun i => (tget s.psc.knobs i).imageBytes)
    ++ (List.finRange 24).flatMap s.trustBytes

end Sys2Proof.Machine
end

