-- ==== Sys2Proof/Machine/Reports.lean ====
section
/-! DEFINITION. The Report Unit: pending reports, the report cell, and emission in rank order while an area has room
(R186 to R190, R202). -/

namespace Sys2Proof.Machine

/-- A report as it is written into a cell (R187, R202). -/
structure Report where
  kind : Byte
  index : Nat
  value : Nat
  aux : Nat
  deriving DecidableEq, Repr

/-- A REPORT area in RUN has room when the mark at its fill position reads EMPTY (R166). -/
def State.roomIn (s : State) (n : AreaId) : Option Area :=
  match s.active n with
  | some a => if a.kind = .report ∧ s.peek (a.cellAddr a.pos) = markEmpty then some a else none
  | none => none

/-- Write a report into the fill cell of an area with room: kind, index, value and aux first, FULL last; set the
area's attention bit; advance the fill position (R166, R189). -/
def State.writeReport (s : State) (n : AreaId) (a : Area) (r : Report) : State :=
  let at' := a.cellAddr a.pos
  let s := s.pokes (at' + 1) (r.kind :: (leBytes 2 r.index ++ leBytes 2 r.value ++ leBytes 2 r.aux))
  let s := s.poke at' markFull
  (s.attention n).setArea n { a with pos := a.nextPos }

/-- The target code of a knob's target (R122). -/
def Target.code : Target → Nat
  | .absolute id => id.val
  | .editRelative i => 64 + i.val
  | .none => 255

/-- The attached flag of a KNOB report: the knob's next accepted change would write a parameter (R123). -/
def Knob.wouldWrite (k : Knob) : Bool :=
  k.target != .none &&
    match k.mode with
    | .direct | .relative => true
    | .catchMode => !k.detached
    | .none => false

/-- Function codes (R127). -/
def SwitchFunc.code : SwitchFunc → Nat
  | .report => 0
  | .sustainA => 1
  | .sustainB => 2
  | .sustainBoth => 3

/-- The content of a KNOB report, read at emission: the target code in bits 0 to 7 of the aux, the attached flag in bit 15
(R123, R202). DESIGN CHOICE, unsafe (log 38): the spec says nothing of bits 8 to 14 of the aux; the model writes 0. -/
def State.knobReport (s : State) (i : KnobId) : Report :=
  let k := tget s.psc.knobs i
  ⟨0x01, i.val, k.last.val, k.target.code + (if k.wouldWrite then 32768 else 0)⟩

/-- The content of a SWITCH report, read at emission (R128). -/
def State.switchReport (s : State) (j : SwitchId) : Report :=
  let w := tget s.psc.switches j
  ⟨0x02, j.val, w.closed.toNat, w.func.code⟩

/-- The content of a TUNE_OSC report, read at emission (R89, R202). DESIGN CHOICE, unsafe (log 38): the spec says nothing of
bits 9 to 15 of the two mask fields; the model writes 0. -/
def State.oscReport (s : State) (o : OscId) : Report :=
  let r := tget s.tun.outcomes o
  ⟨0x03, o.val, r.accepted.toNat, r.failed.toNat⟩

/-- A pending report that emission may choose (R189). -/
inductive Chosen where
  | fault (f : FaultReport)
  | osc (o : OscId)
  | knob (i : KnobId)
  | switch (j : SwitchId)
  deriving DecidableEq, Repr

/-- The highest-ranked pending report of the classes an area joins: the fault slot, then oscillators ascending, then
knobs ascending, then switches ascending (R189). -/
def State.choose (s : State) (n : AreaId) : Option Chosen :=
  let r := s.rpu
  let fault := if r.faultArea = some n then r.fault.map .fault else none
  let osc := if r.tuneArea = some n then ((List.finRange 24).find? fun o => tget r.oscs o).map .osc else none
  let knob := if r.panelArea = some n then ((List.finRange 48).find? fun i => tget r.knobs i).map .knob else none
  let sw := if r.panelArea = some n then ((List.finRange 66).find? fun j => tget r.switches j).map .switch else none
  fault.orElse fun _ => osc.orElse fun _ => knob.orElse fun _ => sw

/-- The content of the chosen report (R187). -/
def State.chosenReport (s : State) : Chosen → Report
  | .fault f => ⟨0x06, f.index, f.value, f.aux⟩
  | .osc o => s.oscReport o
  | .knob i => s.knobReport i
  | .switch j => s.switchReport j

/-- Clear the flag or slot of the chosen report (R189). -/
def State.clearChosen (s : State) (c : Chosen) : State :=
  { s with rpu :=
    match c with
    | .fault _ => { s.rpu with fault := none }
    | .osc o => { s.rpu with oscs := tset s.rpu.oscs o false }
    | .knob i => { s.rpu with knobs := tset s.rpu.knobs i false }
    | .switch j => { s.rpu with switches := tset s.rpu.switches j false } }

/-- One step of an emission: nothing without room or without a pending report (R189). -/
def State.emitOne (s : State) (n : AreaId) : Option State :=
  match s.roomIn n, s.choose n with
  | some a, some c => some ((s.writeReport n a (s.chosenReport c)).clearChosen c)
  | _, _ => none

/-- At most `fuel` steps of an emission. -/
def State.emitUpTo (n : AreaId) : Nat → State → State
  | 0, s => s
  | fuel + 1, s =>
    match s.emitOne n with
    | some s' => s'.emitUpTo n fuel
    | none => s

/-- Emission into an area (R189): each step clears one of the 1 + 24 + 48 + 66 pending places, so 139 steps are all
there can be. -/
def State.emit (s : State) (n : AreaId) : State := s.emitUpTo n 139

/-- A report is made only in RUN, for a class joined to an area (R186): record it as `mark` says, then run the
emission of the class's area (R188). -/
def State.makePending (s : State) (area : Option AreaId) (mark : Rpu → Rpu) : State :=
  match area with
  | some n => if s.mpa.device = .run then State.emit { s with rpu := mark s.rpu } n else s
  | none => s

/-- Make a KNOB report pending (R123, R188). -/
def State.reportKnob (s : State) (i : KnobId) : State :=
  s.makePending s.rpu.panelArea fun r => { r with knobs := tset r.knobs i true }

/-- Make a SWITCH report pending (R128, R188). -/
def State.reportSwitch (s : State) (j : SwitchId) : State :=
  s.makePending s.rpu.panelArea fun r => { r with switches := tset r.switches j true }

/-- Make a TUNE_OSC report pending (R89, R188). -/
def State.reportOsc (s : State) (o : OscId) : State :=
  s.makePending s.rpu.tuneArea fun r => { r with oscs := tset r.oscs o true }

/-- Make a NOTE_FAULT report pending; one that finds the slot full is discarded (R188). -/
def State.reportFault (s : State) (f : FaultReport) : State :=
  s.makePending s.rpu.faultArea fun r => { r with fault := some (r.fault.getD f) }

/-- Offer a VOICE report: after the emission it is written if the area still has room, otherwise discarded (R188). -/
def State.reportVoice (s : State) (r : Report) : State :=
  match s.rpu.voiceArea with
  | some n =>
    if s.mpa.device = .run then
      let s := s.emit n
      match s.roomIn n with
      | some a => s.writeReport n a r
      | none => s
    else s
  | none => s

/-- A VOICE STOLEN report: voice, new key, old key (R16, R187). -/
def stolenReport (v : VoiceId) (new old : Nat) : Report := ⟨0x04, v.val, new, old⟩

/-- A VOICE RESTORED report: voice and key (R18, R187). -/
def restoredReport (v : VoiceId) (k : Key) : Report := ⟨0x05, v.val, k.val, 0⟩

/-- RESTART clears every pending flag and empties the fault slot (R190); the joins go with the inactive areas and are
taken again at the next RUN entry. -/
def State.clearReports (s : State) : State :=
  { s with rpu :=
    { s.rpu with
      knobs := Vector.replicate 48 false
      switches := Vector.replicate 66 false
      oscs := Vector.replicate 24 false
      fault := none } }

end Sys2Proof.Machine
end

