-- ==== Sys2Proof/Machine/Pitch.lean ====
section
/-! DEFINITION. The CV Calculator's arithmetic: the terms of a pitch, glide, anchor interpolation, range flags, cutoff
and expansion, and the code of a channel at its computation (R43 to R59). -/

namespace Sys2Proof.Machine

/-- The coarse term of a coarse parameter, in semitones (R45). -/
def coarseTerm (p : Nat) : Int := ((p * 48 + 2047) / 4095 : Nat) - 24

/-- The fine term of a fine parameter, in pitch units (R45). -/
def fineTerm (p : Nat) : Int := (p / 16 : Nat) - 128

/-- The bend offset of a bend value under a bend range (R46); `/` floors for the positive divisor. -/
def bendOffset (b : Int) (range : Nat) : Int := (b * range + 16) / 32

/-- The unison offset of member `i` of a group of `n` at spread `spread` (R47), truncated toward zero. -/
def unisonTerm (spread i n : Nat) : Int :=
  if 2 ≤ n then ((spread : Int) * (2 * (i : Int) - n + 1)).tdiv (n - 1) else 0

/-- The unison offset of a voice (R47): zero unless it is busy and its part is in UNISON. -/
def State.unisonOffset (s : State) (v : VoiceId) : Int :=
  let r := s.voice v
  if r.state.busy ∧ (s.voicing r.part).mode = .unison then
    unisonTerm (s.param r.part 14 / 16) r.unison.val (s.val.group.get r.part).val
  else 0

/-- The target pitch of a key under a transpose (R48). -/
def targetOf (key : Key) (transpose : Int) : Pitch := clampFin 32767 (((key.val : Int) + transpose) * 256)

/-- The target pitch of a voice (R48).  A voice without a key keeps its c: it has no target (R44). -/
def State.targetPitch (s : State) (v : VoiceId) : Pitch :=
  let r := s.voice v
  match r.key with
  | some k => targetOf k (s.voicing r.part).transpose
  | none => r.c

/-- The step of a glide expiry from P3 (R50). -/
def glideStep (p3 : Nat) : Nat := (4095 - p3) / 8 + 1

/-- One step of c toward a target, not beyond it (R50). -/
def stepToward (c target : Pitch) (step : Nat) : Pitch :=
  if c.val < target.val then clampFin 32767 (min (c.val + step) target.val : Nat)
  else clampFin 32767 (max (c.val - step) target.val : Nat)

/-- A glide expiry for one voice (R50). -/
def State.glideVoice (s : State) (v : VoiceId) : State :=
  let r := s.voice v
  if r.state.busy ∧ r.glideActive = true then
    let t := s.targetPitch v
    let c := stepToward r.c t (glideStep (s.param r.part 3))
    s.putVoice v { r with c := c, glideActive := c != t }
  else s

/-- A transpose change of a part: each busy voice of the part that is not gliding takes its new target (R49). -/
def State.retarget (s : State) (p : Part) : State :=
  (s.busyAscending p).foldl (fun s v =>
    let r := s.voice v
    if r.glideActive then s else s.putVoice v { r with c := s.targetPitch v }) s

/-- The sum of an oscillator's pitch terms before the clamp (R52). -/
def State.pitchSum (s : State) (o : OscId) : Int :=
  let v := oscVoice o
  let r := s.voice v
  let coarse := if o.val % 2 = 0 then coarseTerm (s.param r.part 0) else coarseTerm (s.param r.part 1)
  let fine := if o.val % 2 = 0 then fineTerm (s.param r.part 15) else fineTerm (s.param r.part 2)
  (r.c.val : Int) + 256 * coarse + fine + bendOffset (s.nrt.bend.get r.part) (s.voicing r.part).bendRange
    + s.unisonOffset v

/-- The segment of a pitch in an anchor table (R53, step 1). -/
def segmentOf (p : Int) : Fin 8 := clampFin 7 ((p - 6144) / 3072)

/-- The code of a pitch under an anchor table, before the code clamp (R53, steps 1 to 4). -/
def rawCode (table : Vector Code 9) (p : Int) : Int :=
  let g := segmentOf p
  let lo : Int := (tget table g.castSucc).val
  let hi : Int := (tget table g.succ).val
  let f := p - (6144 + 3072 * (g.val : Int))
  lo + ((hi - lo) * f + 1536) / 3072

/-- The DAC code of an oscillator pitch sum, and whether the pitch clamp or the code clamp acted (R52 to R54). -/
def pitchCode (table : Vector Code 9) (sum : Int) : Code × Bool :=
  let p := clampInt 0 32767 sum
  let raw := rawCode table p
  (clampFin 65535 raw, p != sum || clampInt 0 65535 raw != raw)

/-- Write the dynamic flag of an oscillator, and the sticky flag when it is set (R54). -/
def State.putRange (s : State) (o : OscId) (clamped : Bool) : State :=
  let v := oscVoice o
  let r := s.voice v
  s.putVoice v (if o.val % 2 = 0 then { r with dynA := clamped, stickyA := r.stickyA || clamped }
    else { r with dynB := clamped, stickyB := r.stickyB || clamped })

/-- The CUTOFF code from P4, P5, P6, key and velocity (R56). -/
def cutoffCode (p4 p5 p6 : Nat) (key velocity : Nat) : Code :=
  clampFin 65535 ((p4 * 16 : Nat) + ((key : Int) - 60) * 512 * p5 / 4096 + ((velocity : Int) - 64) * p6 / 8)

/-- The expansion of a parameter value (R57). -/
def expandCode (p : Nat) : Code := clampFin 65535 (p * 16 + p / 256 : Nat)

/-- The code of a voice's channel other than its pitch channels (R56, R57). -/
def State.voiceCode (s : State) (v : VoiceId) (f : Nat) : Code :=
  let r := s.voice v
  if f = 2 then
    cutoffCode (s.param r.part 4) (s.param r.part 5) (s.param r.part 6) ((r.key.map (·.val)).getD 60) r.velocity.val
  else expandCode (s.param r.part (Fin.ofNat 16 (f + 4)))

/-- What the CV Calculator hands back for a channel (R43), with the stamp the engine reads in the compute phase
(R62, R68), and the state after the range flags are written (R54). -/
structure Computation where
  code : Code
  onset : Option (BitVec 32)
  stamp : Option (BitVec 16)
  after : State

/-- The computation event of a channel (R43).  A pitch channel of a TUNING voice takes its override code, or 0, and
writes no range flag (R58). -/
def State.compute (s : State) (n : ChanId) : Computation :=
  match chanVoice n with
  | none => ⟨expandCode (s.global (Fin.ofNat 8 (n.val - 120))), none, none, s⟩
  | some v =>
    let onset := some (s.voice v).onset
    match chanOsc n with
    | some o =>
      if (s.voice v).state = .tuning then
        match tget s.rfe.overrides o with
        | some e => ⟨e.code, onset, some e.stamp, s⟩
        | none => ⟨0, onset, none, s⟩
      else
        let r := pitchCode (tget s.tun.anchors o) (s.pitchSum o)
        ⟨r.1, onset, none, s.putRange o r.2⟩
    | none => ⟨s.voiceCode v (n.val % 10), onset, none, s⟩

end Sys2Proof.Machine
end

