-- ==== Sys2Proof/Machine/Refresh.lean ====
section
/-! DEFINITION. The Refresh Engine: the jump queue, the override table, the slot and its phases, and the pins of the
DAC link and the sample-and-hold bank (R60 to R72). -/

namespace Sys2Proof.Machine

/-- A push of a channel to the jump queue (R66). -/
def State.push (s : State) (n : ChanId) : State :=
  if n ∈ s.rfe.jump ∨ Config.jumpDepth ≤ s.rfe.jump.length then s
  else { s with rfe := { s.rfe with jump := s.rfe.jump ++ [n] } }

/-- The pushes of an assignment: PITCH_A, PITCH_B and CUTOFF of a voice, in that order (R5). -/
def State.pushVoice (s : State) (v : VoiceId) : State :=
  ((s.push (chanOf v 0)).push (chanOf v 1)).push (chanOf v 2)

/-- Set an override code: a new stamp, the entry, and a push (R68).  The stamp returned is the stamp counter after. -/
def State.setOverride (s : State) (o : OscId) (code : Code) : State :=
  let stamp := s.rfe.stamp + 1
  State.push { s with rfe :=
    { s.rfe with stamp := stamp, overrides := tset s.rfe.overrides o (some ⟨code, stamp⟩) } } (pitchChan o)

/-- Make a channel's override entry absent (R69). -/
def State.clearOverride (s : State) (o : OscId) : State :=
  { s with rfe := { s.rfe with overrides := tset s.rfe.overrides o none } }

/-- Make the entries of both pitch channels of a voice absent (R69). -/
def State.clearOverrides (s : State) (v : VoiceId) : State := (s.clearOverride (oscA v)).clearOverride (oscB v)

/-- The slot boundary: the head of the jump queue, or else the channel at the round position, which advances (R61). -/
def State.chooseChannel (s : State) : ChanId × State :=
  match s.rfe.jump with
  | n :: rest => (n, { s with rfe := { s.rfe with jump := rest } })
  | [] => (s.rfe.round, { s with rfe := { s.rfe with round := s.rfe.round + 1 } })

/-- Begin the next slot: choose its channel, compute its code, and drive DAC_CS low for the shift (R61, R62).  The
slot keeps the divider and dwell it begins with (R64). -/
def State.beginSlot (s : State) : State :=
  let (n, s) := s.chooseChannel
  let k := s.compute n
  let s := k.after
  { s with rfe :=
    { s.rfe with slot := some ⟨n, k.code, k.onset, k.stamp, s.mpa.setup.divider, s.mpa.setup.dwell, false⟩ } }

/-- The 24-bit DAC word of a slot: command byte 0x30, then the code (R63). -/
def dacWord (code : Code) : BitVec 24 := (0x30 : BitVec 8) ++ BitVec.ofNat 16 code.val

/-- The code that the DAC takes from the 24 bits shifted into it: those after the command byte (R63). -/
def wordCode (w : BitVec 24) : Code := ⟨w.toNat % 65536, Nat.mod_lt _ (by decide)⟩

/-- The load phase: DAC_CS rises and the DAC takes the code, the channel number is driven on SHA0 to SHA6, SHSTB
rises (R62).  Only a slot whose shift is in progress has a load phase to come (log 8). -/
def State.loadSlot (s : State) : State :=
  match s.rfe.slot with
  | some k =>
    if k.strobing then s
    else { s with rfe :=
      { s.rfe with dacOut := wordCode (dacWord k.code), sha := k.chan, slot := some { k with strobing := true } } }
  | none => s

/-- The serial clock in kHz for a divider (R63): 32 MHz ÷ (2 × (div + 1)). -/
def serialClockKHz (div : Nat) : Nat := 32000 / (2 * (div + 1))

/-- The time of a slot in ns (R62 to R64): 24 serial clock periods and the dwell. -/
def Slot.nanos (k : Slot) : Nat := 1500 * (k.divider + 1) + 1000 * k.dwell

/-- DAC_CS: low while a slot's word is being shifted, high otherwise (R62, R63, R72). -/
def State.dacCs (s : State) : Bool :=
  match s.rfe.slot with
  | some k => k.strobing
  | none => true

/-- DAC_CLK in half `h` of the 24 serial clock periods of a shift: low in a period's first half and high in its second,
so that it rises once for each bit; low whenever DAC_CS is high (R63, R72, R207). -/
def State.dacClk (s : State) (h : Fin 48) : Bool := !s.dacCs && decide (h.val % 2 = 1)

/-- DAC_DATA in half `h` of a shift: the word's bits, most significant first, each for one period from the falling edge
of DAC_CLK on (R63).  In reset the line is low (R207); between two shifts the spec gives it no level (log 31). -/
def State.dacData (s : State) (h : Fin 48) : Bool :=
  match s.rfe.slot with
  | some k =>
    if k.strobing then Config.dataAtRest s.openUsed k.code.val h.val else (dacWord k.code).getLsbD (23 - h.val / 2)
  | none => false

/-- SHSTB: high during a slot's dwell (R62). -/
def State.shstb (s : State) : Bool :=
  match s.rfe.slot with
  | some k => k.strobing
  | none => false

/-- RESTART's action in the engine: the jump queue and the override table are emptied, the rest is kept (R71). -/
def State.restartRefresh (s : State) : State :=
  { s with rfe := { s.rfe with jump := [], overrides := Vector.replicate 24 none } }

end Sys2Proof.Machine
end

