-- ==== Sys2Proof/Machine/Voices.lean ====
section
/-! DEFINITION. The Voice Allocator's steps on one voice: assignment, SINGLE key change, freeing, release, take, pull
(R1 to R14, R21, R25, R26). -/

namespace Sys2Proof.Machine

/-- The glide decision of an assignment (R6); `multi` says that it is a MULTI key change of a sounding voice. -/
def glideDecision (g : GlideMode) (multi : Bool) : Bool :=
  match g with
  | .off => false
  | .always => true
  | .legato => multi

/-- The record of a voice assigned a key (R5, steps 1 to 4, 7 and 8), from its old record. -/
def assignedVoice (s : State) (r : Voice) (e : HeldKey) (unison : VoiceId) (multi : Bool) : Voice :=
  let glide := glideDecision (s.voicing r.part).glide multi
  let wasOpen := r.state.gate
  { r with
    state := .pending
    key := some e.key
    velocity := e.velocity
    onset := s.val.onset + 1
    unison := unison
    aWritten := false
    bWritten := false
    offDeferred := false
    glideActive := glide
    c := if glide then r.c else targetOf e.key (s.voicing r.part).transpose
    gapRunning := if wasOpen then decide (s.mpa.setup.gateGap ≠ 0) else r.gapRunning
    holdRunning := if wasOpen then false else r.holdRunning }

/-- Assign a key and velocity to a voice (R5): the onset counter advances, the record is written, the voice moves to
the tail of the busy list, and its pitch and cutoff channels are pushed. -/
def State.assign (s : State) (v : VoiceId) (e : HeldKey) (unison : VoiceId) (multi : Bool) : State :=
  let r := assignedVoice s (s.voice v) e unison multi
  let s := { s with val :=
    { s.val with
      onset := s.val.onset + 1
      free := s.val.free.erase v
      tune := s.val.tune.erase v
      busy := s.val.busy.erase v ++ [v] } }
  (s.putVoice v r).pushVoice v

/-- A SINGLE key change of one voice (R21). -/
def State.singleChange (s : State) (v : VoiceId) (e : HeldKey) : State :=
  let r := s.voice v
  let y := s.voicing r.part
  let r' : Voice :=
    { r with
      key := some e.key
      velocity := e.velocity
      offDeferred := false
      state := if r.state = .sustained then .on else r.state
      glideActive := y.glide != .off
      c := if y.glide = .off then targetOf e.key y.transpose else r.c }
  (s.putVoice v r').pushVoice v

/-- The group size of a part becomes 0 when the part has no busy voice left (R23). -/
def State.dissolve (s : State) (p : Part) : State :=
  if s.busyOf p = [] then { s with val := { s.val with group := s.val.group.put p 0 } } else s

/-- A voice becomes FREE (R13, before the follow-ups): it joins the free list's tail with its gate closed, its timers
stopped, and its release, glide and written flags cleared. -/
def State.freeVoice (s : State) (v : VoiceId) : State :=
  let r := s.voice v
  let s := { s with val :=
    { s.val with
      busy := s.val.busy.erase v
      tune := s.val.tune.erase v
      free := s.val.free.erase v ++ [v] } }
  let s := s.putVoice v
    { r with
      state := .free, gapRunning := false, holdRunning := false, offDeferred := false, glideActive := false,
      aWritten := false, bWritten := false }
  s.dissolve r.part

/-- Several voices become FREE in one event, one after another (R12, R13, R14, R92). -/
def State.freeVoices (s : State) (vs : List VoiceId) : State := vs.foldl State.freeVoice s

/-- A release of one voice (R11), before any follow-up. -/
def State.releaseVoice (s : State) (v : VoiceId) : State :=
  let r := s.voice v
  match r.state with
  | .pending => s.putVoice v { r with offDeferred := true }
  | .on =>
    if r.holdRunning then s.putVoice v { r with offDeferred := true }
    else if s.nrt.pedal.get r.part then s.putVoice v { r with state := .sustained }
    else s.freeVoice v
  | .sustained | .free | .tuning => s

/-- Take a FREE voice for a background job; refused otherwise (R25). -/
def State.takeVoice (s : State) (v : VoiceId) : State :=
  let r := s.voice v
  if r.state = .free then
    let s := { s with val := { s.val with free := s.val.free.erase v, tune := s.val.tune ++ [v] } }
    s.putVoice v { r with state := .tuning }
  else s

/-- Pull one voice for a foreground job (R26): it becomes TUNING from the free list or from the busy list, where its
gate closes with no hold and no gap. -/
def State.pullVoice (s : State) (v : VoiceId) : State :=
  let r := s.voice v
  let s := { s with val :=
    { s.val with
      free := s.val.free.erase v
      busy := s.val.busy.erase v
      tune := s.val.tune.erase v ++ [v] } }
  let r' : Voice :=
    if r.state.busy then
      { r with gapRunning := false, holdRunning := false, offDeferred := false, aWritten := false, bWritten := false }
    else r
  (s.putVoice v { r' with state := .tuning }).dissolve r.part

/-- The written flag of a channel-written event (R7): set when the voice is not TUNING and the carried onset is its
current one. -/
def State.flagWritten (s : State) (o : OscId) (onset : BitVec 32) : State :=
  let v := oscVoice o
  let r := s.voice v
  if r.state ≠ .tuning ∧ onset = r.onset then
    s.putVoice v (if o.val % 2 = 0 then { r with aWritten := true } else { r with bWritten := true })
  else s

/-- RESTART's action on one voice record (R28). -/
def Voice.restarted (r : Voice) : Voice :=
  { r with
    state := .free, gapRunning := false, holdRunning := false, offDeferred := false, glideActive := false,
    aWritten := false, bWritten := false, unison := 0 }

/-- RESTART's action on the allocator (R28): every voice FREE; the free list, then every voice that was busy or
TUNING, ascending.  The image is inactive in this event, so no entry is rewritten (R193). -/
def State.restartVoices (s : State) : State :=
  { s with val :=
    { s.val with
      voices := allVoices.foldl (fun t v => tmod t v Voice.restarted) s.val.voices
      free := s.val.free ++ allVoices.filter fun v => (s.voice v).state != .free
      busy := []
      tune := []
      group := ⟨0, 0⟩ } }

end Sys2Proof.Machine
end

