-- ==== Sys2Proof/Machine/Lending.lean ====
section
/-! DEFINITION. What the Tuner's measure channels do with voices and codes: setting a code, starting an anchor, taking
a qualifying oscillator, abandoning a measurement, granting a yield (R75, R76, R79, R87, R90). -/

namespace Sys2Proof.Machine

/-- The record of a measure channel. -/
def State.chan (s : State) (c : CardId) : MeasChan := tget s.tun.chans c

/-- Replace the record of a measure channel. -/
def State.putChan (s : State) (c : CardId) (m : MeasChan) : State :=
  { s with tun := { s.tun with chans := tset s.tun.chans c m } }

/-- Replace the tune job. -/
def State.putJob (s : State) (j : Option TuneJob) : State := { s with tun := { s.tun with job := j } }

/-- The pending list of a card; empty without a job (R85). -/
def State.pendingList (s : State) (c : CardId) : List PendingOsc :=
  match s.tun.job with
  | some j => tget j.lists c
  | none => []

/-- Replace the pending list of a card. -/
def State.putPending (s : State) (c : CardId) (l : List PendingOsc) : State :=
  match s.tun.job with
  | some j => s.putJob (some { j with lists := tset j.lists c l })
  | none => s

/-- The select value of an oscillator on its card: o − 6c (R76). -/
def selectOf (o : OscId) : Fin 6 := ⟨o.val % 6, by omega⟩

/-- A channel sets a code for the oscillator it holds (R76): select lines, override, expected stamp, SETTING. -/
def State.setCode (s : State) (c : CardId) (o : OscId) (code : Code) : State :=
  let s := s.setOverride o code
  let m := s.chan c
  s.putChan c
    { m with state := .setting, code := code, expected := s.rfe.stamp, select := selectOf o, periods := none }

/-- The nominal code of an anchor, 12288 + 6144k (R73). -/
def nominalCode (k : AnchorId) : Code := ⟨12288 + 6144 * k.val, by omega⟩

/-- The start code of an anchor under a mode (R79). -/
def State.startCode (s : State) (mode : TuneMode) (o : OscId) (k : AnchorId) : Code :=
  match mode with
  | .full => nominalCode k
  | .touch => tget (tget s.tun.anchors o) k

/-- The start step of a mode (R79). -/
def TuneMode.startStep : TuneMode → Nat
  | .full => 512
  | .touch => 64

/-- A channel starts an anchor of an oscillator, with the anchors that follow it (R79). -/
def State.startAnchor (s : State) (c : CardId) (o : OscId) (k : AnchorId) (rest : List AnchorId) : State :=
  match s.tun.job with
  | some j =>
    let m := s.chan c
    let s := s.putChan c
      { m with osc := some o, voice := some (oscVoice o), anchor := k, rest := rest, step := j.mode.startStep }
    s.setCode c o (s.startCode j.mode o k)
  | none => s

/-- A channel takes a pending oscillator, whose voice it holds, and starts its first remaining anchor. -/
def State.startOsc (s : State) (c : CardId) (p : PendingOsc) : State :=
  let s := s.putPending c ((s.pendingList c).erase p)
  match p.anchors with
  | k :: rest => s.startAnchor c p.osc k rest
  | [] => s

/-- The first oscillator of a card's pending list whose voice is FREE (R87). -/
def State.qualifying (s : State) (c : CardId) : Option PendingOsc :=
  (s.pendingList c).find? fun p => (s.voice (oscVoice p.osc)).state = .free

/-- Whether a background job exists. -/
def State.background (s : State) : Bool :=
  match s.tun.job with
  | some j => j.background
  | none => false

/-- An IDLE channel of a background job looks for a qualifying oscillator, and takes its voice (R87). -/
def State.idleLook (s : State) (c : CardId) : State :=
  if s.background ∧ (s.chan c).state = .idle then
    match s.qualifying c with
    | some p => (s.takeVoice (oscVoice p.osc)).startOsc c p
    | none => s
  else s

/-- Whether an event calls for a look of a card's channel (R87, R90): a voice of the card is FREE that was not FREE
before it, or the channel, which was not IDLE before it, lost its voice to a yield. -/
def State.lookCalled (before s : State) (c : CardId) : Bool :=
  (allVoices.any fun v => voiceCard v = c && (s.voice v).state = .free && (before.voice v).state != .free)
    || ((before.chan c).state != .idle && (s.chan c).state = .idle)

/-- The looks that an event calls for, in ascending card, after everything else in the event: after every follow-up of
R13 (R87), and after part B's key-on where part A's took a voice by a yield, so that A's handling does not change the
voices that B finds (R33).  R90 does not say where in the event the look of a yielding channel falls, and R87 orders
no two cards' looks: both are the model's choice (log 9). -/
def State.looksAfter (before s : State) : State :=
  allCards.foldl (fun s c => if State.lookCalled before s c then s.idleLook c else s) s

/-- A channel's measurement is abandoned: the channel becomes IDLE and holds nothing (R90, R92, R95). -/
def MeasChan.abandoned (m : MeasChan) : MeasChan :=
  { m with state := .idle, osc := none, voice := none, rest := [], periods := none }

/-- A channel becomes IDLE and holds nothing (R88, R90). -/
def State.idleChan (s : State) (c : CardId) : State := s.putChan c (s.chan c).abandoned

/-- The voice a yield for a part would release: under a background job, the part's lowest-numbered TUNING voice
(R27, R90). -/
def State.yieldable (s : State) (p : Part) : Option VoiceId :=
  if s.background then allVoices.find? fun v => (s.voice v).part = p && (s.voice v).state = .tuning else none

/-- The Tuner's side of a yield of a voice (R90, steps 1 to 3): the measurement is abandoned, its oscillator returns
to the front of the pending list with its anchors from the one in progress on, the overrides go. -/
def State.yieldVoice (s : State) (v : VoiceId) : State :=
  let c := voiceCard v
  let m := s.chan c
  let s :=
    match m.osc with
    | some o =>
      if m.voice = some v then (s.putPending c (⟨o, m.anchor :: m.rest⟩ :: s.pendingList c)).idleChan c else s
    | none => s
  s.clearOverrides v

/-- A yield for a part: the voice goes straight to the assignment (R27, R90).  The look of its channel is taken with the
looks at the end of the event (`looksAfter`, log 9). -/
def State.yieldAssign (s : State) (v : VoiceId) (e : HeldKey) : State := (s.yieldVoice v).assign v e 0 false

end Sys2Proof.Machine
end

