-- ==== Sys2Proof/Machine/Allocate.lean ====
section
/-! DEFINITION. Allocation: follow-ups of freeings, restore, POLY allocation and steal, MONO and UNISON starts and key
changes, gate opening and hold, pedal and ALL_OFF on voices (R8 to R24, R26). -/

namespace Sys2Proof.Machine

/-- The priority entry of a part's held-key list: newest, lowest or highest key (MONO and UNISON; R19). -/
def priorityEntry (priority : Priority) : List HeldKey → Option HeldKey
  | [] => none
  | e :: rest =>
    match priority with
    | .last => (e :: rest).getLast?
    | .low => some (rest.foldl (fun m x => if x.key < m.key then x else m) e)
    | .high => some (rest.foldl (fun m x => if m.key < x.key then x else m) e)

/-- The priority entry of a part. -/
def State.priorityOf (s : State) (p : Part) : Option HeldKey := priorityEntry (s.voicing p).priority (s.held p)

/-- The busy voice of a part with a key, if one has it (R15, R17). -/
def State.busyWith (s : State) (p : Part) (k : Key) : Option VoiceId :=
  (s.busyOf p).find? fun v => (s.voice v).key = some k

/-- The newest voiceless key of a part (R18). -/
def State.newestVoiceless (s : State) (p : Part) : Option HeldKey :=
  ((s.held p).filter fun e => (s.busyWith p e.key).isNone).getLast?

/-- Restore the part's newest voiceless key onto a FREE voice (R18). -/
def State.restoreOnto (s : State) (v : VoiceId) : State :=
  match s.newestVoiceless (s.voice v).part with
  | some e => (s.assign v e 0 false).reportVoice (restoredReport v e.key)
  | none => s

/-- A MONO part starts (R20). -/
def State.startMono (s : State) (p : Part) (e : HeldKey) : State :=
  match s.freeAscending p with
  | v :: _ => s.assign v e 0 false
  | [] =>
    match s.yieldable p with
    | some v => s.yieldAssign v e
    | none => s

/-- Assign a key to the members of a forming group, with ascending indices from `i` (R22). -/
def State.assignGroup (e : HeldKey) : List VoiceId → VoiceId → State → State
  | [], _, s => s
  | v :: vs, i, s => (s.assign v e i false).assignGroup e vs (i + 1)

/-- A UNISON part starts (R22). -/
def State.startUnison (s : State) (p : Part) (e : HeldKey) : State :=
  let members := (s.freeAscending p).take (s.voicing p).count
  let sized (n : Nat) (s : State) : State :=
    { s with val := { s.val with group := s.val.group.put p (Fin.ofNat 13 n) } }
  match members with
  | [] =>
    match s.yieldable p with
    | some v => sized 1 (s.yieldAssign v e)
    | none => s
  | _ :: _ => sized members.length (s.assignGroup e members 0)

/-- A MONO or UNISON part starts on its priority key (R20, R22); a POLY part has no start. -/
def State.startPart (s : State) (p : Part) : State :=
  match s.priorityOf p with
  | none => s
  | some e =>
    match (s.voicing p).mode with
    | .poly => s
    | .mono => s.startMono p e
    | .unison => s.startUnison p e

/-- The follow-up of one freed voice, if it is still FREE at its turn (R13). -/
def State.followUp (s : State) (v : VoiceId) : State :=
  let r := s.voice v
  if r.state = .free then
    match (s.voicing r.part).mode with
    | .poly => if (s.voicing r.part).restore then s.restoreOnto v else s
    | .mono | .unison => if s.held r.part ≠ [] ∧ s.busyOf r.part = [] then s.startPart r.part else s
  else s

/-- The follow-ups of the voices an event freed, in the order they joined the free list (R13). -/
def State.followUps (s : State) (freed : List VoiceId) : State := freed.foldl State.followUp s

/-- Free several voices, then take their follow-ups (R12, R13). -/
def State.freeAndFollow (s : State) (vs : List VoiceId) : State := (s.freeVoices vs).followUps vs

/-- Release several busy voices, then take the follow-ups of those that became FREE (R11, R13). -/
def State.release (s : State) (vs : List VoiceId) : State :=
  let s' := vs.foldl State.releaseVoice s
  s'.followUps (vs.filter fun v => (s.voice v).state != .free && (s'.voice v).state = .free)

/-- A key change of a part: every busy voice, ascending, takes the entry's key by the retrigger setting (R21). -/
def State.keyChange (s : State) (p : Part) (e : HeldKey) : State :=
  match (s.voicing p).retrigger with
  | .multi => (s.busyAscending p).foldl (fun s v => s.assign v e (s.voice v).unison true) s
  | .single => (s.busyAscending p).foldl (fun s v => s.singleChange v e) s

/-- The evaluation of the priority key of a MONO or UNISON part (R19); `pressed` is the key when the event is a KEY_ON.
The sounding key is the one its busy voices carry. -/
def State.evalPriority (s : State) (p : Part) (pressed : Option Key) : State :=
  match s.priorityOf p, s.busyOf p with
  | none, [] => s
  | none, v :: vs => s.release (v :: vs)
  | some _, [] => s.startPart p
  | some e, v :: _ =>
    if (s.voice v).key ≠ some e.key ∨ pressed = some e.key then s.keyChange p e else s

/-- The steal step of a POLY part (R16). -/
def State.steal (s : State) (p : Part) (e : HeldKey) : State :=
  match (s.voicing p).steal, s.busyOf p with
  | .oldest, v :: _ =>
    let old := (s.voice v).keyByte.toNat
    (s.assign v e 0 false).reportVoice (stolenReport v e.key.val old)
  | _, _ => s

/-- A KEY_ON for a POLY part: retrigger, free voice, yield, steal (R15). -/
def State.polyOn (s : State) (p : Part) (e : HeldKey) : State :=
  match s.busyWith p e.key with
  | some v => s.assign v e 0 false
  | none =>
    match s.freeOf p with
    | v :: _ => s.assign v e 0 false
    | [] =>
      match s.yieldable p with
      | some v => s.yieldAssign v e
      | none => s.steal p e

/-- A KEY_ON handed to the allocator, after the held-key list has changed (R15, R19). -/
def State.allocOn (s : State) (p : Part) (e : HeldKey) : State :=
  match (s.voicing p).mode with
  | .poly => s.polyOn p e
  | .mono | .unison => s.evalPriority p (some e.key)

/-- A KEY_OFF handed to the allocator, after the held-key list has changed (R17, R19). -/
def State.allocOff (s : State) (p : Part) (k : Key) : State :=
  match (s.voicing p).mode with
  | .poly =>
    match s.busyWith p k with
    | some v => if (s.voice v).state = .sustained then s else s.release [v]
    | none => s
  | .mono | .unison => s.evalPriority p none

/-- Pedal-up for a part frees its SUSTAINED voices in busy-list order (R12). -/
def State.pedalUpVoices (s : State) (p : Part) : State :=
  s.freeAndFollow ((s.busyOf p).filter fun v => (s.voice v).state = .sustained)

/-- Set the pedal state of a part, and hand it to the allocator (R37, R12). -/
def State.setPedal (s : State) (p : Part) (down : Bool) : State :=
  let s := { s with nrt := { s.nrt with pedal := s.nrt.pedal.put p down } }
  if down then s else s.pedalUpVoices p

/-- ALL_OFF for a part (R14, R39): the held-key list is emptied, the pedal goes up, every busy voice becomes FREE in
busy-list order and the group size becomes 0.  The follow-ups find the list empty and do nothing. -/
def State.partOff (s : State) (p : Part) : State :=
  let s := { s with nrt := { s.nrt with held := s.nrt.held.put p [], pedal := s.nrt.pedal.put p false } }
  let s := s.freeVoices (s.busyOf p)
  { s with val := { s.val with group := s.val.group.put p 0 } }

/-- The hold expiry of a voice (R10): the timer stops, and a deferred release is applied. -/
def State.holdExpire (s : State) (v : VoiceId) : State :=
  let r := s.voice v
  let s' := s.putVoice v { r with holdRunning := false, offDeferred := false }
  if r.offDeferred then s'.release [v] else s'

/-- The opening condition of a voice, evaluated (R9): a PENDING voice with both written flags set and its gap timer
stopped becomes ON.  A gate hold of 0 counts as expired at once. -/
def State.evalOpen (s : State) (v : VoiceId) : State :=
  let r := s.voice v
  if r.state = .pending ∧ r.aWritten = true ∧ r.bWritten = true ∧ r.gapRunning = false then
    let s := s.putVoice v { r with state := .on, holdRunning := true }
    if s.mpa.setup.gateHold = 0 then s.holdExpire v else s
  else s

/-- After a foreground pull, a part that lost voices is served as after a freeing (R18, R26). -/
def State.serveAfterPull (s : State) (p : Part) : State :=
  match (s.voicing p).mode with
  | .poly => if (s.voicing p).restore then (s.freeOf p).foldl State.restoreOnto s else s
  | .mono | .unison => if s.held p ≠ [] ∧ s.busyOf p = [] then s.startPart p else s

end Sys2Proof.Machine
end

