-- ==== Sys2Proof/Machine/Cells.lean ====
section
/-! DEFINITION. Request results: the result codes, and the write of a result into a request cell (R172, R180, R199). -/

namespace Sys2Proof.Machine

/-- Result codes (R199). -/
inductive ResultCode where
  | ok | partialOk | badKind | badLength | badArgument | busy | emptySlot | corrupt | aborted | nothing | storeFault
  deriving DecidableEq, Repr

/-- The values of the result codes (R199). -/
def ResultCode.code : ResultCode → Byte
  | .ok => 0x00
  | .partialOk => 0x01
  | .badKind => 0x10
  | .badLength => 0x11
  | .badArgument => 0x12
  | .busy => 0x13
  | .emptySlot => 0x20
  | .corrupt => 0x21
  | .aborted => 0x22
  | .nothing => 0x23
  | .storeFault => 0x24

/-- The first byte of a cell of an area in RUN. -/
def State.cellAt (s : State) (n : AreaId) (i : Nat) : Option Nat := (s.active n).map fun a => a.cellAddr i

/-- Write the mark of a request cell. -/
def State.markCell (s : State) (n : AreaId) (i : Nat) (mark : Byte) : State :=
  match s.cellAt n i with
  | some at' => s.poke at' mark
  | none => s

/-- Write a result into a request cell: the result code at byte 3, the result data from byte 6, DONE last; set the
area's attention bit (R180). -/
def State.writeResult (s : State) (n : AreaId) (i : Nat) (code : ResultCode) (data : List Byte) : State :=
  match s.cellAt n i with
  | some at' => (((s.poke (at' + 3) code.code).pokes (at' + 6) data).poke at' markDone).attention n
  | none => s

end Sys2Proof.Machine
end

