-- ==== Sys2Proof/Machine/Tuner.lean ====
section
/-! DEFINITION. The Tuner: the tune job, search and verify, acceptance and failure, finishing an oscillator, job
completion and abort, calibration load and target check (R73 to R95). -/

namespace Sys2Proof.Machine

/-- The anchors a mask selects, ascending (R85). -/
def anchorsOf (mask : BitVec 9) : List AnchorId := (List.finRange 9).filter fun k => mask.getLsbD k.val

/-- The oscillators of a card that a mask selects, ascending (R85). -/
def oscsOfCard (mask : BitVec 24) (c : CardId) : List OscId :=
  (List.finRange 24).filter fun o => oscCard o = c && mask.getLsbD o.val

/-- The pending list of a card in a new job (R85). -/
def initialList (oscMask : BitVec 24) (anchorMask : BitVec 9) (c : CardId) : List PendingOsc :=
  (oscsOfCard oscMask c).map fun o => ⟨o, anchorsOf anchorMask⟩

/-- The job record a TUNE request creates (R85). -/
def newJob (area : AreaId) (cell : Nat) (oscMask : BitVec 24) (anchorMask : BitVec 9) (mode : TuneMode)
    (background : Bool) : TuneJob where
  area := area
  cell := cell
  oscMask := oscMask
  anchorMask := anchorMask
  mode := mode
  background := background
  lists := #v[initialList oscMask anchorMask 0, initialList oscMask anchorMask 1, initialList oscMask anchorMask 2,
    initialList oscMask anchorMask 3]
  accepted := 0
  failed := 0
  skipped := 0
  firstFailure := none
  masks := Vector.replicate 24 ⟨0, 0⟩

/-- The result data of a TUNE: counts and first failure (R91, R198). -/
def TuneJob.resultData (j : TuneJob) : List Byte :=
  leBytes 2 j.accepted ++ leBytes 2 j.failed ++ leBytes 2 j.skipped ++
    match j.firstFailure with
    | some f => [BitVec.ofNat 8 f.osc.val, BitVec.ofNat 8 f.anchor.val,
        match f.cause with | .outOfReach => 1 | .order => 2 | .noSignal => 3]
    | none => [0, 0, 0]

/-- The voices that own a selected oscillator, ascending (R86). -/
def selectedVoices (mask : BitVec 24) : List VoiceId :=
  allVoices.filter fun v => mask.getLsbD (oscA v).val || mask.getLsbD (oscB v).val

/-- The start of a foreground job (R86, R26): pull every voice of a selected oscillator, serve the parts that lost
voices (A, then B), and start the first oscillator of every card that has one. -/
def State.startForeground (s : State) (oscMask : BitVec 24) : State :=
  let vs := selectedVoices oscMask
  let lostA := vs.any fun v => (s.voice v).part = .A
  let lostB := vs.any fun v => (s.voice v).part = .B
  let s := vs.foldl State.pullVoice s
  let s := if lostA then s.serveAfterPull .A else s
  let s := if lostB then s.serveAfterPull .B else s
  allCards.foldl (fun s c =>
    match s.pendingList c with
    | p :: _ => s.startOsc c p
    | [] => s) s

/-- The start of a tune job (R86, R87).  In the take event of a background job the four channels look in ascending
card: R87 does not order them, and the order shows in the stamps and pushes (the model's choice, log 9). -/
def State.startJob (s : State) (j : TuneJob) : State :=
  let s := s.putJob (some j)
  if j.background then allCards.foldl State.idleLook s else s.startForeground j.oscMask

/-- Whether every pending list is empty and every channel IDLE (R91). -/
def State.jobFinished (s : State) : Bool :=
  allCards.all fun c => (s.pendingList c).isEmpty && (s.chan c).state = .idle

/-- A finished job completes: its cell is written DONE with OK or PARTIAL, and the record is deleted (R91). -/
def State.completeJob (s : State) : State :=
  match s.tun.job with
  | some j =>
    if s.jobFinished then
      (s.writeResult j.area j.cell (if j.failed = 0 then .ok else .partialOk) j.resultData).putJob none
    else s
  | none => s

/-- The channel takes its next oscillator (R88, step 3). -/
def State.takeNext (s : State) (c : CardId) : State :=
  if s.background then s.idleLook c
  else
    match s.pendingList c with
    | p :: _ => s.startOsc c p
    | [] => s

/-- A finished oscillator: its outcome record and its TUNE_OSC report (R89). -/
def State.recordOutcome (s : State) (o : OscId) : State :=
  match s.tun.job with
  | some j =>
    State.reportOsc
      { s with tun := { s.tun with outcomes := tset s.tun.outcomes o (tget j.masks o) } } o
  | none => s

/-- A channel whose oscillator is finished moves on: sibling first, otherwise the voice goes back and the next
oscillator is taken; the job completes when nothing is left (R88, R89, R91). -/
def State.finishOsc (s : State) (c : CardId) (o : OscId) : State :=
  let s := s.recordOutcome o
  let v := oscVoice o
  let s :=
    match (s.pendingList c).find? fun p => p.osc = sibling o with
    | some p => (s.clearOverride o).startOsc c p
    | none => ((((s.clearOverrides v).freeVoice v).followUp v).idleChan c).takeNext c
  s.completeJob

/-- An anchor has ended in acceptance or failure: the next remaining anchor starts, or the oscillator is finished
(R88). -/
def State.nextAnchor (s : State) (c : CardId) (o : OscId) : State :=
  match (s.chan c).rest with
  | k :: rest => s.startAnchor c o k rest
  | [] => s.finishOsc c o

/-- Change the job record. -/
def State.modJob (s : State) (f : TuneJob → TuneJob) : State :=
  match s.tun.job with
  | some j => s.putJob (some (f j))
  | none => s

/-- The bit of an anchor in a mask. -/
def anchorBit (k : AnchorId) : BitVec 9 := BitVec.twoPow 9 k.val

/-- A failed anchor keeps its code and loses its trust; the job counts it (R84). -/
def State.failAnchor (s : State) (o : OscId) (k : AnchorId) (cause : Cause) : State :=
  let s := s.putTrust o (tget s.tun.trust o &&& ~~~(anchorBit k))
  s.modJob fun j =>
    { j with
      failed := j.failed + 1
      masks := tmod j.masks o fun m => { m with failed := m.failed ||| anchorBit k }
      firstFailure := some (j.firstFailure.getD ⟨o, k, cause⟩) }

/-- The neighbour check of an acceptance (R83). -/
def neighboursOk (table : Vector Code 9) (k : AnchorId) (code : Code) : Bool :=
  (if k.val = 0 then true else decide (tget table ⟨k.val - 1, by omega⟩ < code)) &&
    (if h : k.val + 1 < 9 then decide (code < tget table ⟨k.val + 1, h⟩) else true)

/-- A code taken to acceptance (R83): accepted when it lies between its neighbours, a failure with ORDER otherwise. -/
def State.acceptAnchor (s : State) (o : OscId) (k : AnchorId) (code : Code) : State :=
  let table := tget s.tun.anchors o
  if neighboursOk table k code then
    let s := { s with tun := { s.tun with anchors := tset s.tun.anchors o (tset table k code) } }
    let s := s.putTrust o (tget s.tun.trust o ||| anchorBit k)
    s.modJob fun j =>
      { j with
        accepted := j.accepted + 1
        masks := tmod j.masks o fun m => { m with accepted := m.accepted ||| anchorBit k } }
  else s.failAnchor o k .order

/-- The next search code: up by the step when the count is above T, down when it is below (R80). -/
def searchCode (code : Code) (step m t : Nat) : Code :=
  if t < m then clampFin 65535 (code.val + step : Nat) else clampFin 65535 ((code.val : Int) - step)

/-- A completed measurement with count `m` (R80, R81). -/
def State.measured (s : State) (c : CardId) (m : Nat) : State :=
  let ch := s.chan c
  let t := s.mpa.setup.targetT
  match ch.osc with
  | none => s
  | some o =>
    if ch.step = 0 then
      if ((m : Int) - t).natAbs ≤ s.mpa.setup.tolerance then (s.acceptAnchor o ch.anchor ch.code).nextAnchor c o
      else (s.failAnchor o ch.anchor .outOfReach).nextAnchor c o
    else if m = t then (s.acceptAnchor o ch.anchor ch.code).nextAnchor c o
    else (s.putChan c { ch with step := ch.step / 2 }).setCode c o (searchCode ch.code ch.step m t)

/-- A measurement that ends with no signal (R82): the anchor fails, the remaining ones are SKIPPED, the oscillator is
finished. -/
def State.noSignalEnd (s : State) (c : CardId) : State :=
  let ch := s.chan c
  match ch.osc with
  | none => s
  | some o =>
    let s := s.failAnchor o ch.anchor .noSignal
    let s := s.modJob fun j => { j with skipped := j.skipped + ch.rest.length }
    s.finishOsc c o

/-- The settle expiry (R78): a SETTLING channel clears its counter and enters COUNTING, waiting for an edge. -/
def State.settleEnd (s : State) (c : CardId) : State :=
  let m := s.chan c
  if m.state = .settling then s.putChan c { m with state := .counting, periods := none, counter := 0 } else s

/-- The periods of a count at an anchor: N = 2^k (R78). -/
def periodsOf (k : AnchorId) : Nat := 2 ^ k.val

/-- A rising edge on TINc, `clocks` reference clocks after the channel's event before it (R78).  A count of clocks that
reaches the limit before the edge ends the measurement with no signal; the edge then finds no counting channel. -/
def State.edge (s : State) (c : CardId) (clocks : Nat) : State :=
  let m := s.chan c
  if m.state = .counting then
    let count := m.counter + clocks
    if Config.countLimit ≤ count then s.noSignalEnd c
    else
      match m.periods with
      | none => s.putChan c { m with periods := some 0, counter := 0 }
      | some p =>
        if p + 1 < periodsOf m.anchor then s.putChan c { m with periods := some (p + 1), counter := count }
        else if count = 0 then s
        else (s.putChan c { m with periods := some (p + 1), counter := count }).measured c count
  else s

/-- Whether the next rising edge completes the count of a channel (R78: the (N + 1)th edge). -/
def State.lastEdgeDue (s : State) (c : CardId) : Bool :=
  let m := s.chan c
  match m.state, m.periods with
  | .counting, some p => decide (periodsOf m.anchor ≤ p + 1)
  | _, _ => false

/-- The Tuner's side of a channel-written event (R77): a SETTING channel whose pitch channel and expected stamp it
carries enters SETTLING. -/
def State.settleStart (s : State) (n : ChanId) (stamp : Option (BitVec 16)) : State :=
  allCards.foldl (fun s c =>
    let m := s.chan c
    if m.state = .setting ∧ m.osc.map pitchChan = some n ∧ stamp = some m.expected then
      s.putChan c { m with state := .settling }
    else s) s

/-- TUNE_ABORT's action on an existing job (R92, steps 1 to 5 but the abort's own DONE). -/
def State.abortJob (s : State) (j : TuneJob) : State :=
  let lent := allVoices.filter fun v => (s.voice v).state = .tuning
  let s := { s with rfe := { s.rfe with overrides := Vector.replicate 24 none } }
  let s := s.freeAndFollow lent
  let s := allCards.foldl State.idleChan s
  (s.writeResult j.area j.cell .aborted j.resultData).putJob none

/-- Whether nine codes strictly increase (R73, R93). -/
def tableRises (t : Vector Code 9) : Bool := (List.finRange 8).all fun k => tget t k.castSucc < tget t k.succ

/-- Set the basis, the T to which the trust bits refer (R93, R94). -/
def State.putBasis (s : State) (t : Nat) : State := { s with tun := { s.tun with basis := some t } }

/-- Clear every trust mask (R94). -/
def State.clearTrust (s : State) : State := (List.finRange 24).foldl (fun s o => s.putTrust o 0) s

/-- The target check (R94): when the basis differs from T or is absent, every trust mask is cleared and the basis
becomes T. -/
def State.targetCheck (s : State) : State :=
  if s.tun.basis = some s.mpa.setup.targetT then s
  else s.clearTrust.putBasis s.mpa.setup.targetT

/-- The table of an oscillator a calibration load installs: the loaded one if it strictly rises, else the nominal one
(R93). -/
def loadedTable (t : Vector Code 9) : Vector Code 9 :=
  match tableRises t with
  | true => t
  | false => nominalTable

/-- The trust mask that goes with it (R93). -/
def loadedMask (t : Vector Code 9) (m : BitVec 9) : BitVec 9 :=
  match tableRises t with
  | true => m
  | false => 0

/-- Replace the anchor table of an oscillator. -/
def State.putTable (s : State) (o : OscId) (t : Vector Code 9) : State :=
  { s with tun := { s.tun with anchors := tset s.tun.anchors o t } }

/-- Install the tables and masks of a calibration load (R93, step 1). -/
def State.installCal (s : State) (tables : Vector (Vector Code 9) 24) (masks : Vector (BitVec 9) 24) : State :=
  (List.finRange 24).foldl (fun s o =>
    (s.putTable o (loadedTable (tget tables o))).putTrust o (loadedMask (tget tables o) (tget masks o))) s

/-- A calibration load (R93): each table that strictly rises is installed with its mask, any other is replaced by the
nominal table with a clear mask; the basis becomes the record's count; in RUN the target check follows. -/
def State.loadCal (s : State) (tables : Vector (Vector Code 9) 24) (masks : Vector (BitVec 9) 24) (t : Nat) : State :=
  let s := (s.installCal tables masks).putBasis t
  if s.mpa.device = .run then s.targetCheck else s

/-- RESTART's action in the Tuner (R95): the job is dropped without a result, every channel IDLE. -/
def State.restartTuner (s : State) : State := (allCards.foldl State.idleChan s).putJob none

end Sys2Proof.Machine
end

