-- ==== Sys2Proof/Machine/Operands.lean ====
section
/-! DEFINITION. The operands of commands: conditioning of request arguments, the voicing block's bytes, target codes,
and the copies of note and request cells (R31, R41, R100, R122, R127, R172, R175, R197, R198, R200). -/

namespace Sys2Proof.Machine

/-! ### The voicing block (R100, R200) -/

/-- Allocation mode codes; other codes become POLY. -/
def allocOfCode (b : Byte) : AllocMode := if b = 1 then .mono else if b = 2 then .unison else .poly
/-- Priority codes; other codes become LAST. -/
def priorityOfCode (b : Byte) : Priority := if b = 1 then .low else if b = 2 then .high else .last
/-- Glide mode codes; other codes become OFF. -/
def glideOfCode (b : Byte) : GlideMode := if b = 1 then .always else if b = 2 then .legato else .off
/-- Steal codes, bits 0 to 6 of their byte; other codes become OLDEST. -/
def stealOfCode (b : Byte) : StealMode := if b &&& 0x7F = 1 then .none else .oldest
/-- Retrigger codes; other codes become MULTI. -/
def retriggerOfCode (b : Byte) : Retrigger := if b = 1 then .single else .multi

/-- Condition the eight bytes of a voicing block (R100). -/
def conditionVoicing (b : Vector Byte 8) : Voicing where
  mode := allocOfCode b[0]
  count := clampNat 2 12 b[1].toNat
  priority := priorityOfCode b[2]
  glide := glideOfCode b[3]
  bendRange := clampNat 0 12 b[4].toNat
  transpose := clampInt (-24) 24 b[5].toInt
  steal := stealOfCode b[6]
  restore := b[6].getLsbD 7
  retrigger := retriggerOfCode b[7]

/-- The eight bytes of a voicing block in force (R105, R200). -/
def Voicing.bytes (y : Voicing) : List Byte :=
  [match y.mode with | .poly => 0 | .mono => 1 | .unison => 2,
    BitVec.ofNat 8 y.count,
    match y.priority with | .last => 0 | .low => 1 | .high => 2,
    match y.glide with | .off => 0 | .always => 1 | .legato => 2,
    BitVec.ofNat 8 y.bendRange,
    BitVec.ofInt 8 y.transpose,
    (match y.steal with | .oldest => 0 | .none => 1) ||| (if y.restore then 0x80 else 0),
    match y.retrigger with | .multi => 0 | .single => 1]

/-- The bytes of a list at a place, as a fixed run; places past its end are 0. -/
def vec8 (l : List Byte) (at' : Nat) : Vector Byte 8 := Vector.ofFn fun i => l.getD (at' + i.val) 0
/-- Sixteen bytes of a list at a place. -/
def vec16 (l : List Byte) (at' : Nat) : Vector Byte 16 := Vector.ofFn fun i => l.getD (at' + i.val) 0

/-! ### Keyboard, knobs, switches -/

/-- A keyboard mode code above 2 becomes SINGLE (R41). -/
def kbOfCode (b : Byte) : KbMode := if b = 1 then .split else if b = 2 then .layer else .single

/-- A split key above 127 becomes 127 (R41). -/
def splitOfByte (b : Byte) : Key := clampFin 127 b.toNat

/-- A target code names a parameter (0 to 39), an edit-relative index (64 to 79) or none (255); any other code is
refused (R122). -/
def targetOfCode (b : Byte) : Option Target :=
  if h : b.toNat < 40 then some (.absolute ⟨b.toNat, h⟩)
  else if h : 64 ≤ b.toNat ∧ b.toNat < 80 then some (.editRelative ⟨b.toNat - 64, by omega⟩)
  else if b = 0xFF then some .none
  else none

/-- Knob mode codes; any other code becomes NONE (R122). -/
def knobModeOfCode (b : Byte) : KnobMode :=
  if b = 1 then .direct else if b = 2 then .catchMode else if b = 3 then .relative else .none

/-- Switch function codes; any other code becomes REPORT (R127). -/
def switchFuncOfCode (b : Byte) : SwitchFunc :=
  if b = 1 then .sustainA else if b = 2 then .sustainB else if b = 3 then .sustainBoth else .report

/-- A value above 4095 becomes 4095 (R98). -/
def clampParam (x : Nat) : ParamVal := clampFin 4095 x

/-! ### Cell copies -/

/-- The copy of a note cell (R29, R197): its number within its area and its fields. -/
structure NoteCell where
  index : Nat
  kind : Byte
  part : Byte
  key : Byte
  velocity : Byte
  bend : BitVec 16
  source : Byte
  deriving DecidableEq, Repr

/-- Copy the note cell at an address (R197). -/
def State.copyNote (s : State) (index at' : Nat) : NoteCell :=
  ⟨index, s.peek (at' + 1), s.peek (at' + 2), s.peek (at' + 3), s.peek (at' + 4),
    BitVec.ofNat 16 (s.peekLe (at' + 5) 2), s.peek (at' + 7)⟩

/-- The copy of a request cell (R172): its number, kind and length, and the bytes from byte 6. -/
structure RequestCell where
  index : Nat
  kind : Byte
  length : Byte
  args : List Byte
  deriving DecidableEq, Repr

/-- Copy the request cell at an address (R172).  No kind has more than 9 argument bytes (R174), and the bytes of the
cell from byte 6 are 26. -/
def State.copyRequest (s : State) (index at' : Nat) : RequestCell :=
  ⟨index, s.peek (at' + 1), s.peek (at' + 2), s.peeks (at' + 6) (min (s.peek (at' + 2)).toNat 26)⟩

/-- An argument byte; 0 past the copied ones. -/
def RequestCell.arg (c : RequestCell) (i : Nat) : Byte := c.args.getD i 0

/-- A little-endian argument of `n` bytes. -/
def RequestCell.argLe (c : RequestCell) (i n : Nat) : Nat := ofLe ((c.args.drop i).take n)

end Sys2Proof.Machine
end

