-- ==== Sys2Proof/Machine/Params.lean ====
section
/-! DEFINITION. The Parameter Block: the write rule with its effect on catch knobs, voicing changes, part load and
part read (R96 to R110, R120, R121). -/

namespace Sys2Proof.Machine

/-- The parameter ID a target resolves to (R97, R111). -/
def State.resolve (s : State) : Target → Option ParamId
  | .none => none
  | .absolute id => some id
  | .editRelative i => some (partParam s.prb.edit i)

/-- The record of a knob. -/
def State.knob (s : State) (i : KnobId) : Knob := tget s.psc.knobs i

/-- Replace the record of a knob. -/
def State.putKnob (s : State) (i : KnobId) (k : Knob) : State :=
  { s with psc := { s.psc with knobs := tset s.psc.knobs i k } }

/-- Compare a knob's position with a value (R120): the side it takes, or attachment when they are equal.  R98's closing
sentence has a SET_PARAM that repeats a knob's value leave it detached; R98 refers the action to the Panel Scan
chapter, and the model takes what R120 and R111 say there (the model's choice between the two, log 35). -/
def Knob.sideAgainst (k : Knob) (p : ParamVal) : Knob :=
  if k.last < p then { k with detached := true, side := .below }
  else if p < k.last then { k with detached := true, side := .above }
  else { k with detached := false }

/-- A detach of a CATCH knob with a target (R120): it records its side against its target's current value, and its
image entry is rewritten (R194). -/
def State.detachKnob (s : State) (i : KnobId) : State :=
  match s.resolve (s.knob i).target with
  | some n => (s.putKnob i ((s.knob i).sideAgainst (tget s.prb.params n))).imageKnob i
  | none => s

/-- The effect of a detaching write of parameter n on one knob (R120). -/
def State.detachIfOn (n : ParamId) (s : State) (i : KnobId) : State :=
  let k := s.knob i
  if k.mode = .catchMode ∧ s.resolve k.target = some n then s.detachKnob i else s

/-- The effect of a plain write of parameter n on one knob other than the writer (R121): a DETACHED CATCH knob on n
compares again; its image entry is rewritten when its catch state or side changes. -/
def State.recomputeIfOn (n : ParamId) (writer : KnobId) (s : State) (i : KnobId) : State :=
  let k := s.knob i
  if i ≠ writer ∧ k.mode = .catchMode ∧ k.detached = true ∧ s.resolve k.target = some n then
    let k' := k.sideAgainst (tget s.prb.params n)
    if k' = k then s else (s.putKnob i k').imageKnob i
  else s

/-- Clamp and store a parameter value, and rewrite its image entry (R98, steps 1 to 3). -/
def State.storeParam (s : State) (n : ParamId) (value : Nat) : State :=
  State.imageParam { s with prb := { s.prb with params := tset s.prb.params n (clampParam value) } } n

/-- A detaching parameter write (R98). -/
def State.writeDetaching (s : State) (n : ParamId) (value : Nat) : State :=
  (List.finRange 48).foldl (State.detachIfOn n) (s.storeParam n value)

/-- A plain parameter write by a knob (R98). -/
def State.writePlain (s : State) (n : ParamId) (value : Nat) (writer : KnobId) : State :=
  (List.finRange 48).foldl (State.recomputeIfOn n writer) (s.storeParam n value)

/-- Replace a part's voicing block. -/
def State.putVoicing (s : State) (p : Part) (y : Voicing) : State :=
  { s with prb := { s.prb with voicing := s.prb.voicing.put p y } }

/-- A voicing change (R24): with another mode or unison count the part receives ALL_OFF before the new block is in
force; otherwise a priority change is evaluated on a MONO or UNISON part, and a transpose change retargets the part's
sounding voices (R49), in that order (log 10). -/
def State.changeVoicing (s : State) (p : Part) (y : Voicing) : State :=
  let old := s.voicing p
  if y.mode ≠ old.mode ∨ y.count ≠ old.count then (s.partOff p).putVoicing p y
  else
    let s := s.putVoicing p y
    let s := if y.priority ≠ old.priority ∧ y.mode ≠ .poly then s.evalPriority p none else s
    if y.transpose ≠ old.transpose then s.retarget p else s

/-- Replace a part's name and rewrite its image entry (R101, R109). -/
def State.putName (s : State) (p : Part) (name : Vector Byte 16) : State :=
  State.imageName { s with prb := { s.prb with name := s.prb.name.put p name } } p

/-- Sixteen bytes of 0x20 (R101). -/
def blankName : Vector Byte 16 := Vector.replicate 16 0x20

/-- What a part load takes (R104). -/
structure PartData where
  params : Vector Nat 16
  voicing : Option Voicing
  name : Option (Vector Byte 16)
  deriving DecidableEq, Repr

/-- The sixteen detaching writes of a part load, ascending (R104, step 2). -/
def State.loadParams (s : State) (p : Part) (values : Vector Nat 16) : State :=
  (List.finRange 16).foldl (fun s i => s.writeDetaching (partParam p i) (tget values i)) s

/-- A part load (R104): voicing, then parameters, then name. -/
def State.loadPart (s : State) (p : Part) (d : PartData) : State :=
  let s :=
    match d.voicing with
    | some y => s.changeVoicing p y
    | none => s
  (s.loadParams p d.params).putName p (d.name.getD blankName)

/-- The parameter bytes of a part: P0 to P15 as 16-bit values (R201, R205). -/
def State.paramRun (s : State) (p : Part) : List Byte :=
  (List.finRange 16).flatMap fun i => leBytes 2 (s.param p i)

/-- A part read as the 56 bytes of an export range: parameters, voicing block, name (R105, R201). -/
def State.exportBytes (s : State) (p : Part) : List Byte :=
  s.paramRun p ++ (s.voicing p).bytes ++ (s.prb.name.get p).toList

/-- Sixteen 16-bit values from a run of bytes (R201). -/
def paramValues (bytes : List Byte) : Vector Nat 16 :=
  Vector.ofFn fun i => ofLe ((bytes.drop (2 * i.val)).take 2)

/-- The part data of an import range (R107, R201): always with voicing and name. -/
def importData (bytes : List Byte) : PartData :=
  ⟨paramValues bytes, some (conditionVoicing (vec8 bytes 32)), some (vec16 bytes 40)⟩

/-- Detach every edit-relative CATCH knob (R103, R120). -/
def State.detachEdit (s : State) : State :=
  (List.finRange 48).foldl (fun s i =>
    let k := s.knob i
    match k.mode, k.target with
    | .catchMode, .editRelative _ => s.detachKnob i
    | _, _ => s) s

end Sys2Proof.Machine
end

