-- ==== Sys2Proof/Machine/Panel.lean ====
section
/-! DEFINITION. The Panel Scanner: the knob scan, the baseline pass, knob modes, switches and debounce (R111 to R129). -/

namespace Sys2Proof.Machine

/-- The end snap of a raw value with end zone z (R114, step 1). -/
def endSnap (z : Nat) (r : ParamVal) : ParamVal :=
  if r.val ≤ z then 0 else if 4095 - z ≤ r.val then 4095 else r

/-- The acceptance of a snapped value against the last accepted one, with deadband b (R114, step 2). -/
def accepted (b : Nat) (v last : ParamVal) : Bool :=
  decide (b ≤ ((v.val : Int) - last.val).natAbs) || ((v = 0 || v = 4095) && v != last)

/-- The catch test of a DETACHED knob at position v against its target's value p (R119): it reaches or crosses p. -/
def catches (side : Side) (v p : ParamVal) : Bool :=
  v = p || (match side with | .below => decide (p < v) | .above => decide (v < p))

/-- The mode action of an accepted change of knob `i` from `u` to `v` (R116 to R119). -/
def State.knobAction (s : State) (i : KnobId) (u v : ParamVal) : State :=
  let k := s.knob i
  match s.resolve k.target with
  | none => s
  | some n =>
    let p := tget s.prb.params n
    match k.mode with
    | .none => s
    | .direct => s.writePlain n v.val i
    | .relative => s.writePlain n (clampInt 0 4095 ((p.val : Int) + ((v.val : Int) - u.val))).toNat i
    | .catchMode =>
      if k.detached then
        if catches k.side v p then
          ((s.putKnob i { k with detached := false }).imageKnob i).writePlain n v.val i
        else s
      else s.writePlain n v.val i

/-- A sample of an ordinary pass (R114, R116, R123). -/
def State.ordinarySample (s : State) (i : KnobId) (raw : ParamVal) : State :=
  let k := s.knob i
  let v := endSnap s.mpa.setup.endZone raw
  if accepted s.mpa.setup.deadband v k.last then
    let s := (s.putKnob i { k with last := v }).imageKnob i
    (s.knobAction i k.last v).reportKnob i
  else s

/-- A sample of the baseline pass (R115): last, the side of a CATCH knob with a target, the report, the image entry. -/
def State.baselineSample (s : State) (i : KnobId) (raw : ParamVal) : State :=
  let k := { s.knob i with last := endSnap s.mpa.setup.endZone raw }
  let k :=
    match k.mode, s.resolve k.target with
    | .catchMode, some n => k.sideAgainst (tget s.prb.params n)
    | _, _ => k
  ((s.putKnob i k).reportKnob i).imageKnob i

/-- The pass after the sample of a knob: the next knob, or none after knob 47 (R113). -/
def Pass.advance (p : Pass) : Option Pass :=
  if h : p.next.val + 1 < 48 then some { p with next := ⟨p.next.val + 1, h⟩ } else none

/-- The sample event of the pass's next knob (R113): discarded outside RUN. -/
def State.sampleKnob (s : State) (raw : ParamVal) : State :=
  match s.psc.pass with
  | none => s
  | some p =>
    let s := { s with psc := { s.psc with pass := p.advance } }
    if s.mpa.device = .run then
      if p.baseline then s.baselineSample p.next raw else s.ordinarySample p.next raw
    else s

/-- The knob scan timer expires (R113): it is armed again with the interval in force, and a pass begins.  An expiry
cannot fall in a pass, whose 768 µs end before the shortest interval, nor in reset (log 8). -/
def State.scanExpire (s : State) : State :=
  match s.psc.pass with
  | some _ => s
  | none =>
    if s.mpa.device = .held then s
    else { s with psc := { s.psc with pass := some ⟨false, 0⟩, armed := s.mpa.setup.scanInterval } }

/-- RUN entry abandons a pass in progress, begins the baseline pass and restarts the timer (R113). -/
def State.beginBaseline (s : State) : State :=
  { s with psc := { s.psc with pass := some ⟨true, 0⟩, armed := s.mpa.setup.scanInterval } }

/-- The pedal settings of a switch change (R126): sustain switches set their pedals, A before B. -/
def State.switchPedals (s : State) (func : SwitchFunc) (closed : Bool) : State :=
  match func with
  | .report => s
  | .sustainA => s.setPedal .A closed
  | .sustainB => s.setPedal .B closed
  | .sustainBoth => (s.setPedal .A closed).setPedal .B closed

/-- The debounce of one reading (R125): the switch after it, and whether its state changed. -/
def Switch.debounce (w : Switch) (n : Nat) (closed : Bool) : Switch × Bool :=
  if closed = w.closed then ({ w with count := 0 }, false)
  else if n ≤ w.count + 1 then ({ w with closed := closed, count := 0 }, true)
  else ({ w with count := w.count + 1 }, false)

/-- One switch of a sample event (R125, R126).  The allocator's response to a pedal, with its reports, comes before the
SWITCH report: R126 puts both into the event and orders neither (the model's choice, log 36). -/
def State.sampleSwitch (closed : SwitchId → Bool) (s : State) (j : SwitchId) : State :=
  let (w, changed) := (tget s.psc.switches j).debounce s.mpa.setup.debounce (closed j)
  let s := { s with psc := { s.psc with switches := tset s.psc.switches j w } }
  if changed ∧ s.mpa.device = .run then (s.switchPedals w.func w.closed).reportSwitch j else s

/-- Whether a switch reads closed (R124): matrix switch 8d + s when SWSs is low while SWDd is driven low, pedal switch
64 or 65 when PDL0 or PDL1 is low. -/
def readsClosed (x : SwitchLevels) (j : SwitchId) : Bool :=
  if h : j.val < 64 then !(tget x.sense ⟨j.val / 8, by omega⟩).getLsbD (j.val % 8) else !x.pedals.getLsbD (j.val - 64)

/-- The level of drive line SWDd (R124, R207): high between samples and in reset; in a sample, while the part drives
line `turn`, low on that line alone. -/
def State.swdLine (s : State) (turn : Option (Fin 8)) (d : Fin 8) : Bool := s.mpa.device = .held || turn != some d

/-- A switch sample event: the 66 readings in ascending switch number (R124). -/
def State.sampleSwitches (s : State) (closed : SwitchId → Bool) : State :=
  (List.finRange 66).foldl (State.sampleSwitch closed) s

end Sys2Proof.Machine
end

