-- ==== Sys2Proof/Machine/Notes.lean ====
section
/-! DEFINITION. The Note Router: validation and conditioning of note cells, routing, held-key lists, and the take of a
note cell (R29 to R42). -/

namespace Sys2Proof.Machine

/-- Note kinds (R29). -/
def kindKeyOn : Byte := 0x01
/-- KEY_OFF. -/
def kindKeyOff : Byte := 0x02
/-- BEND. -/
def kindBend : Byte := 0x03
/-- PEDAL. -/
def kindPedal : Byte := 0x04
/-- ALL_OFF. -/
def kindAllOff : Byte := 0x05

/-- The reason code of a note fault, in the order of the checks (R30): 1 BAD_KIND, 2 BAD_PART, 3 BAD_KEY. -/
def noteFaultReason (c : NoteCell) : Option Nat :=
  if c.kind = 0 ∨ 5 < c.kind.toNat then some 1
  else if 2 < c.part.toNat then some 2
  else if (c.kind = kindKeyOn ∨ c.kind = kindKeyOff) ∧ 127 < c.key.toNat then some 3
  else none

/-- What a valid cell says after conditioning (R31). -/
inductive NoteEvent where
  | keyOn (e : HeldKey)
  | keyOff (k : Key)
  | bend (b : Int)
  | pedal (down : Bool)
  | allOff
  deriving DecidableEq, Repr

/-- The conditioned event of a valid cell (R31): a KEY_ON of velocity 0 is a KEY_OFF, a velocity above 127 becomes 127,
a bend is clamped to −8192..+8191, a PEDAL velocity of 0 is up. -/
def NoteCell.event (c : NoteCell) : NoteEvent :=
  let key : Key := clampFin 127 c.key.toNat
  if c.kind = kindKeyOn then
    if c.velocity = 0 then .keyOff key else .keyOn ⟨key, clampFin 127 c.velocity.toNat⟩
  else if c.kind = kindKeyOff then .keyOff key
  else if c.kind = kindBend then .bend (clampInt (-8192) 8191 c.bend.toInt)
  else if c.kind = kindPedal then .pedal (c.velocity != 0)
  else .allOff

/-- The parts a valid cell reaches, in order (R32, R33). -/
def State.route (s : State) (part : Byte) (ev : NoteEvent) : List Part :=
  if part = 1 then [.A]
  else if part = 2 then [.B]
  else
    match s.nrt.mode, ev with
    | .single, _ => [.A]
    | .split, .keyOn e => if e.key < s.nrt.split then [.B] else [.A]
    | .split, .keyOff k => if k < s.nrt.split then [.B] else [.A]
    | .split, _ => [.A, .B]
    | .layer, _ => [.A, .B]

/-- A held-key list after a key-on (R35): the key moves or joins at the tail, the oldest entry leaving a full list. -/
def heldAfterOn (l : List HeldKey) (e : HeldKey) : List HeldKey :=
  if l.any fun x => x.key = e.key then (l.filter fun x => x.key != e.key) ++ [e]
  else if l.length < Config.heldDepth then l ++ [e]
  else l.drop 1 ++ [e]

/-- A held-key list after a key-off (R36). -/
def heldAfterOff (l : List HeldKey) (k : Key) : List HeldKey := l.filter fun x => x.key != k

/-- Replace a part's held-key list. -/
def State.putHeld (s : State) (p : Part) (l : List HeldKey) : State :=
  { s with nrt := { s.nrt with held := s.nrt.held.put p l } }

/-- A conditioned event for one part: the router's state changes, then the allocator acts (R35 to R39). -/
def State.notePart (s : State) (ev : NoteEvent) (p : Part) : State :=
  match ev with
  | .keyOn e => (s.putHeld p (heldAfterOn (s.held p) e)).allocOn p e
  | .keyOff k => (s.putHeld p (heldAfterOff (s.held p) k)).allocOff p k
  | .bend b => { s with nrt := { s.nrt with bend := s.nrt.bend.put p b } }
  | .pedal down => s.setPedal p down
  | .allOff => s.partOff p

/-- A note fault's report (R30): cell number, directory entry, reason and source byte. -/
def noteFaultReport (n : AreaId) (c : NoteCell) (reason : Nat) : FaultReport :=
  ⟨c.index, n.val, c.source.toNat + 256 * reason⟩

/-- The router's whole handling of a copied note cell (R30 to R33), with the looks of background channels at the end of
the event (R87). -/
def State.routeNote (s : State) (n : AreaId) (c : NoteCell) : State :=
  match noteFaultReason c with
  | some r => s.reportFault (noteFaultReport n c r)
  | none => State.looksAfter s ((s.route c.part c.event).foldl (fun s p => s.notePart c.event p) s)

/-- The take of a note cell (R29, R164): EMPTY is written into the mark, the examine position advances and a look is
due, and the whole effect of the cell follows. -/
def State.takeNote (s : State) (n : AreaId) (a : Area) (c : NoteCell) : State :=
  let s := s.poke (a.cellAddr a.pos) markEmpty
  let s := s.setArea n { a with pos := a.nextPos, lookDue := true }
  s.routeNote n c

/-- Rewrite the part field of every voice from the keyboard configuration (R4, R41). -/
def State.assignOwners (s : State) : State :=
  allVoices.foldl (fun s v =>
    let r := s.voice v
    let owner : Part := if s.nrt.mode ≠ .single ∧ s.nrt.map.getLsbD v.val = true then .B else .A
    s.putVoice v { r with part := owner }) s

/-- SET_KEYBOARD's effect (R41, steps 1 to 3). -/
def State.setKeyboardConfig (s : State) (mode : KbMode) (split : Key) (map : BitVec 12) : State :=
  let s := (s.partOff .A).partOff .B
  State.assignOwners { s with nrt := { s.nrt with mode := mode, split := split, map := map } }

/-- RESTART's action in the router (R42). -/
def State.restartRouter (s : State) : State :=
  { s with nrt := { s.nrt with held := ⟨[], []⟩, pedal := ⟨false, false⟩, bend := ⟨0, 0⟩ } }

end Sys2Proof.Machine
end

