-- ==== Sys2Proof/Machine/StoreLog.lean ====
section
/-! DEFINITION. The Patch Store's pages and records: the page table, log order, patch and calibration records, the
slot index (R130 to R135, R138, R145, R204 to R206). -/

namespace Sys2Proof.Machine

/-! ### Pages (R131) -/

/-- Pages 4 to 63 are the patch region, pages 0 to 3 the calibration ring. -/
def isPatch (p : PageId) : Bool := decide (4 ≤ p.val)

/-- The pages of the patch region, ascending. -/
def patchPages : List PageId := (List.finRange 64).filter fun p => isPatch p

/-- The pages of the calibration ring, ascending. -/
def calPages : List PageId := [0, 1, 2, 3]

/-- The page table's entry of a page. -/
def State.page (s : State) (p : PageId) : PageEntry := tget s.pst.pages p

/-- Replace the page table's entry of a page. -/
def State.putPage (s : State) (p : PageId) (e : PageEntry) : State :=
  { s with pst := { s.pst with pages := tset s.pst.pages p e } }

/-- The patch pages in a state, ascending. -/
def State.patchIn (s : State) (st : PageState) : List PageId := patchPages.filter fun p => (s.page p).state = st

/-- The head page, if one stands. -/
def State.headPage (s : State) : Option PageId := (s.patchIn .head).head?

/-- Sequence a is newer than sequence b (R131). -/
def newerSeq (a b : BitVec 16) : Bool := decide (1 ≤ (a - b).toNat ∧ (a - b).toNat ≤ 32767)

/-- A patch page left with an incomplete header (R135, R136). -/
def State.incomplete (s : State) (p : PageId) : Bool := isPatch p && !(s.page p).headerOk

/-- Page p stands before page q in log order; a patch page with an incomplete header is older than every other page
(R135). -/
def State.olderPage (s : State) (p q : PageId) : Bool :=
  if s.incomplete p then !s.incomplete q else !s.incomplete q && newerSeq (s.page q).seq (s.page p).seq

/-- Insert a page into a list in log order, after the pages that are not newer. -/
def State.insertPage (s : State) (p : PageId) : List PageId → List PageId
  | [] => [p]
  | q :: l => if s.olderPage p q then p :: q :: l else q :: s.insertPage p l

/-- Pages in log order, oldest first (R133). -/
def State.logOrder (s : State) (l : List PageId) : List PageId := l.foldl (fun acc p => s.insertPage p acc) []

/-- The oldest page of a list. -/
def State.oldestPage (s : State) (l : List PageId) : Option PageId := (s.logOrder l).head?

/-- Among pages, the one with the lowest erase count, the lowest page number on a tie (R134). -/
def State.leastErased (s : State) : List PageId → Option PageId
  | [] => none
  | p :: l =>
    match s.leastErased l with
    | some q => if (s.page q).eraseCount < (s.page p).eraseCount then some q else some p
    | none => some p

/-- The number of patch pages that are not BAD (R138). -/
def State.usablePages (s : State) : Nat := (patchPages.filter fun p => (s.page p).state != .bad).length

/-- The read-only test (R138). -/
def State.readOnlyTest (s : State) : State :=
  if s.usablePages < Config.usableMin then { s with pst := { s.pst with readOnly := true } } else s

/-! ### The slot index (R133) -/

/-- Make a slot's entry name a record. -/
def State.putIndex (s : State) (slot : SlotId) (loc : Loc) : State :=
  { s with pst := { s.pst with index := tset s.pst.index slot (some loc) } }

/-- The records the index names in a page. -/
def State.currentIn (s : State) (p : PageId) : List Loc :=
  (s.pst.index.toList.filterMap id).filter fun l => l.page = p

/-- The record the index names in a page that stands first in it (R135: offset order). -/
def State.firstCurrent (s : State) (p : PageId) : Option Loc :=
  match s.currentIn p with
  | [] => none
  | l :: rest => some (rest.foldl (fun m x => if x.off < m.off then x else m) l)

/-- Whether the record at a place is a tombstone (R132, R205). -/
def State.tombstoneAt (s : State) (l : Loc) : Bool := (s.flashByte l.page (l.off + 4)).getLsbD 2

/-- A lookup of a slot: a tombstone leaves the slot empty (R133). -/
def State.lookup (s : State) (slot : SlotId) : Option Loc :=
  match tget s.pst.index slot with
  | some l => if s.tombstoneAt l then none else some l
  | none => none

/-! ### Patch records (R132, R205) -/

/-- The check byte that makes the sum of the body and the check 0 modulo 256. -/
def checkOf (body : List Byte) : Byte := 0 - sumBytes body

/-- The record of a STORE (R140): parameters, and the voicing block and name if their flags are set. -/
def State.storeRecord (s : State) (p : Part) (slot : SlotId) (name voicing : Bool) : PatchRec :=
  let body := s.paramRun p ++ (if voicing then (s.voicing p).bytes else [])
    ++ (if name then (s.prb.name.get p).toList else [])
  { slot := BitVec.ofNat 8 slot.val
    flags := BitVec.ofNat 8 (name.toNat + 2 * voicing.toNat)
    length := 10 + 2 * voicing.toNat + 4 * name.toNat
    origin := p.code
    check := checkOf body
    body := body }

/-- The tombstone of a slot (R132). -/
def tombstoneRecord (slot : SlotId) : PatchRec where
  slot := BitVec.ofNat 8 slot.val
  flags := 4
  length := 2
  origin := 0
  check := 0
  body := []

/-- The slot a record's slot byte names. -/
def PatchRec.slotId (r : PatchRec) : SlotId := clampFin 199 r.slot.toNat

/-- Program steps for a run of bytes. -/
def runTodo (role : ByteRole) (off : Nat) : List Byte → List TodoByte
  | [] => []
  | b :: bs => ⟨off, b, role⟩ :: runTodo role (off + 1) bs

/-- The program steps of a record at a place, in the order of R132: OPEN, length, slot, flags, origin, check, the body
ascending, SEALED. -/
def PatchRec.todo (r : PatchRec) (base : Nat) : List TodoByte :=
  [⟨base, 0x00, .recOpen r.length⟩, ⟨base + 5, BitVec.ofNat 8 r.length, .recLength⟩, ⟨base + 3, r.slot, .recByte⟩,
    ⟨base + 4, r.flags, .recByte⟩, ⟨base + 6, r.origin, .recByte⟩, ⟨base + 7, r.check, .recByte⟩]
    ++ runTodo .recByte (base + 8) r.body ++ [⟨base + 1, 0x00, .recSealed r.slotId base⟩]

/-- The length in 4-byte units of the record at a place. -/
def State.recordLength (s : State) (l : Loc) : Nat := (s.flashByte l.page (l.off + 5)).toNat

/-- The record in the store's buffer, as a copy programs it (R135). -/
def bufferRecord (b : List Byte) : PatchRec where
  slot := b.getD 3 0
  flags := b.getD 4 0
  length := (b.getD 5 0).toNat
  origin := b.getD 6 0
  check := b.getD 7 0
  body := b.drop 8

/-- The record length that agrees with the flags (R132, R205); a tombstone carries no other flag. -/
def lengthOfFlags (flags : Byte) : Option Nat :=
  match (flags &&& 7).toNat with
  | 0 => some 10
  | 1 => some 14
  | 2 => some 12
  | 3 => some 16
  | 4 => some 2
  | _ => none

/-- Whether the sum of a record's body and check is 0 modulo 256 (R142). -/
def PatchRec.sumOk (r : PatchRec) : Bool := sumBytes r.body + r.check = 0

/-- Whether a record carries its voicing block. -/
def PatchRec.hasVoicing (r : PatchRec) : Bool := r.flags.getLsbD 1
/-- Whether a record carries its name. -/
def PatchRec.hasName (r : PatchRec) : Bool := r.flags.getLsbD 0

/-- Where the name stands in a record's body. -/
def PatchRec.nameAt (r : PatchRec) : Nat := if r.hasVoicing then 40 else 32

/-- The part data of a record (R108). -/
def PatchRec.partData (r : PatchRec) : PartData :=
  ⟨paramValues r.body, if r.hasVoicing then some (conditionVoicing (vec8 r.body 32)) else none,
    if r.hasName then some (vec16 r.body r.nameAt) else none⟩

/-- The part a recall is delivered to (R142): by the request's code, or by the record's origin for code 3. -/
def PatchRec.destination (r : PatchRec) (part : Byte) : Part :=
  if part = 1 then .A else if part = 2 then .B else if r.origin = 2 then .B else .A

/-- The result data of a SLOT_INFO that finds a record (R143, R198). -/
def PatchRec.infoData (r : PatchRec) : List Byte :=
  [1, r.flags, r.origin, BitVec.ofNat 8 r.length]
    ++ (if r.hasName then vec16 r.body r.nameAt else blankName).toList

/-! ### Calibration records (R145, R206) -/

/-- The T, code and trust bytes the store reads from the Tuner (R146): T, 24 tables, 24 masks. -/
def State.calT (s : State) : List Byte := leBytes 3 s.mpa.setup.targetT

/-- The 432 code bytes and 48 trust bytes. -/
def State.calBody (s : State) : List Byte :=
  (List.finRange 24).flatMap (fun o => (tget s.tun.anchors o).toList.flatMap fun k => leBytes 2 k.val)
    ++ (List.finRange 24).flatMap s.trustBytes

/-- Bytes 2 to 485 of a calibration record: T, check, codes, trust masks (R206). -/
def State.calBytes (s : State) : List Byte :=
  s.calT ++ [checkOf (s.calT ++ s.calBody)] ++ s.calBody

/-- The program steps of a calibration record (R145): OPEN, then T, check, codes and trust, then SEALED. -/
def calTodo (bytes : List Byte) : List TodoByte :=
  [⟨8, 0x00, .calByte⟩] ++ runTodo .calByte 10 bytes ++ [⟨9, 0x00, .calSealed⟩]

/-- Whether a calibration record's 486 bytes are sealed with a good sum (R145). -/
def calValid (b : List Byte) : Bool := b.getD 1 0xFF = 0 && sumBytes (b.drop 2) = 0

/-- The target count of a calibration record. -/
def calTarget (b : List Byte) : Nat := ofLe ((b.drop 2).take 3)

/-- The anchor tables of a calibration record: oscillator o, anchor k at 6 + 18o + 2k. -/
def calTables (b : List Byte) : Vector (Vector Code 9) 24 :=
  Vector.ofFn fun o => Vector.ofFn fun k => clampFin 65535 (ofLe ((b.drop (6 + 18 * o.val + 2 * k.val)).take 2) : Nat)

/-- The trust masks of a calibration record: oscillator o at 438 + 2o.  A mask has nine bits; R206 says nothing of bits 9
to 15 of its two bytes, which the model programs as 0 and drops at a load (the model's choice, log 37). -/
def calMasks (b : List Byte) : Vector (BitVec 9) 24 :=
  Vector.ofFn fun o => BitVec.ofNat 9 (ofLe ((b.drop (438 + 2 * o.val)).take 2))

/-- The USED calibration pages, newest first (R145). -/
def State.usedCal (s : State) : List PageId :=
  (s.logOrder (calPages.filter fun p => (s.page p).state = .used)).reverse

/-- The ring order after the newest calibration page; from page 0 with no USED page (R146). -/
def State.ringOrder (s : State) : List PageId :=
  match s.usedCal with
  | n :: _ => [n + 1, n + 2, n + 3, n + 4].map fun p => (⟨p.val % 4, by omega⟩ : PageId)
  | [] => calPages

/-- The valid-by-header USED pages older than the current one, newest first (R147). -/
def State.olderCal (s : State) (current : PageId) : List PageId :=
  s.usedCal.filter fun p => (s.page p).headerOk && newerSeq (s.page current).seq (s.page p).seq

end Sys2Proof.Machine
end

