-- ==== Sys2Proof/Machine/Store.lean ====
section
/-! DEFINITION. The Patch Store's steps: placement, head switch, reclaim, retries, the store operations, the start-up
scan, and what each completion of a flash step does (R130 to R151). -/

namespace Sys2Proof.Machine

/-- What the operation in service does in an event: it goes on, or it ends with a result. -/
inductive StoreRun where
  | going (s : State)
  | done (code : ResultCode) (data : List Byte) (s : State)
  deriving DecidableEq, Repr

/-- Replace the flash step in progress. -/
def State.putStep (s : State) (st : Option FlashStep) : State := { s with pst := { s.pst with step := st } }

/-- Replace the operation in service. -/
def State.putService (s : State) (svc : Option Service) : State := { s with pst := { s.pst with service := svc } }

/-- Replace the store's buffer. -/
def State.putBuffer (s : State) (b : List Byte) : State := { s with pst := { s.pst with buffer := b } }

/-- Begin a flash step for the operation in service (R130). -/
def State.begin (s : State) (svc : Service) (ph : Phase) (st : FlashStep) : StoreRun :=
  .going ((s.putStep (some st)).putService (some { svc with phase := ph }))

/-- The erase of a page, with the duration that the erase code in force gives it: 2 + code ms (R130). -/
def State.eraseStep (s : State) (p : PageId) : FlashStep := .erase p (2 + s.mpa.setup.eraseCode)

/-- The time of a flash step in µs (R130): 24 for a program step, its milliseconds for an erase, 1 for each 8 bytes,
rounded up, for a read. -/
def FlashStep.micros : FlashStep → Nat
  | .program _ _ _ _ => 24
  | .erase _ ms => 1000 * ms
  | .read _ _ len => (len + 7) / 8

/-- Begin the first of a run of program steps on a page; `ph` is the phase of a step, given the steps that follow. -/
def State.beginTodo (s : State) (svc : Service) (ph : List TodoByte → Phase) (p : PageId) : List TodoByte → StoreRun
  | [] => .going s
  | b :: rest => s.begin svc (ph rest) (.program p b.off b.value b.role)

/-! ### The end of the scan, and STORE_FAULT -/

/-- The start-up scan ends: the read-only test, then SETUP with SUMMARY bit 8 set (R138, R156). -/
def State.scanEnd (s : State) : State :=
  let s := (s.readOnlyTest.putStep none).putService none
  State.stateChange { s with mpa := { s.mpa with device := .setup } }

/-- Read the next calibration page of a list (R147, R150). -/
def State.readCal (s : State) (svc : Service) (p : PageId) (rest : List PageId) : StoreRun :=
  s.begin svc (.calRead p rest) (.read p 8 486)

/-- The scan's calibration step: the USED calibration pages are read, newest first (R150). -/
def State.scanCal (s : State) (svc : Service) : StoreRun :=
  match s.usedCal with
  | p :: rest => s.readCal svc p rest
  | [] => .going s.scanEnd

/-- The operation ends with STORE_FAULT; the scan goes on to its calibration step instead (R136, R150). -/
def State.storeFault (s : State) (svc : Service) : StoreRun :=
  match svc.op with
  | .scan => s.scanCal svc
  | .write _ | .recall _ _ | .info _ | .storeCal _ | .revertCal _ => .done .storeFault [] s

/-! ### Openings, head switch, reclaim (R131, R134, R135) -/

/-- The program steps of a page header: region, erase count, sequence, then IN_USE (R131, R204). -/
def headerTodo (region : Byte) (count : Nat) (seq : BitVec 16) : List TodoByte :=
  runTodo (.header false) 2 ([region] ++ leBytes 3 count ++ leBytes 2 seq.toNat) ++ [⟨0, 0x00, .header true⟩]

/-- Give a page its region's sequence counter, which advances (R131). -/
def State.takeSeq (s : State) (p : PageId) : State :=
  if isPatch p then
    State.putPage { s with pst := { s.pst with seqPatch := s.pst.seqPatch + 1 } } p
      { s.page p with seq := s.pst.seqPatch }
  else
    State.putPage { s with pst := { s.pst with seqCal := s.pst.seqCal + 1 } } p { s.page p with seq := s.pst.seqCal }

/-- The region byte of a page (R131). -/
def regionOf (p : PageId) : Byte := if isPatch p then 0x50 else 0x43

/-- Open an erased page (R131). -/
def State.openPage (s : State) (svc : Service) (p : PageId) : StoreRun :=
  let s := s.takeSeq p
  s.beginTodo svc (.opening p) p (headerTodo (regionOf p) (s.page p).eraseCount (s.page p).seq)

/-- Open the ERASED patch page with the lowest erase count as the new head (R134). -/
def State.openHead (s : State) (svc : Service) : StoreRun :=
  match s.leastErased (s.patchIn .erased) with
  | some p => s.openPage svc p
  | none => s.storeFault svc

/-- Program the FULL byte of the head (R134 to R136). -/
def State.fillHead (s : State) (svc : Service) (head : PageId) (lost : Bool) : StoreRun :=
  s.begin svc (.markFull lost) (.program head 1 0x00 .full)

/-- Erase the victim of a round (R135, step 3). -/
def State.eraseVictim (s : State) (svc : Service) (v : PageId) : StoreRun :=
  s.begin { svc with victim := some v } .erasing (s.eraseStep v)

/-- Whether the index names a record in a page (R135). -/
def State.hasCurrent (s : State) (p : PageId) : Bool := (s.firstCurrent p).isSome

/-- A reclaim round begins (R135): the victim is the oldest FULL page, or, with no ERASED page, the oldest FULL page
without a current record; a victim with current records needs a new head first.  With no victim the operation ends with
STORE_FAULT in the same event, at its entry into service too, where R178's list of ends without a flash step does not
name this case (the model's choice, log 24). -/
def State.startRound (s : State) (svc : Service) : StoreRun :=
  match s.patchIn .erased with
  | [] =>
    match s.oldestPage ((s.patchIn .full).filter fun p => !s.hasCurrent p) with
    | some v => s.eraseVictim svc v
    | none => s.storeFault svc
  | _ :: _ =>
    match s.oldestPage (s.patchIn .full) with
    | some v =>
      if s.hasCurrent v then
        match s.headPage with
        | some h => s.fillHead { svc with victim := some v } h false
        | none => s.openHead { svc with victim := some v }
      else s.eraseVictim svc v
    | none => s.storeFault svc

/-- Whether a record of some units fits in a page (R134). -/
def State.fits (s : State) (p : PageId) (units : Nat) : Bool :=
  decide ((s.page p).writePos + 4 * units ≤ Config.pageSize)

/-- Program a record at a page's write position (R132, R134). -/
def State.beginRecord (s : State) (svc : Service) (copy : Bool) (r : PatchRec) (p : PageId) : StoreRun :=
  s.beginTodo svc (.record copy) p (r.todo (s.page p).writePos)

/-- The record does not fit: a head switch with two ERASED pages or more, a reclaim with fewer (R134). -/
def State.makeRoom (s : State) (svc : Service) : StoreRun :=
  if 2 ≤ (s.patchIn .erased).length then
    match s.headPage with
    | some h => s.fillHead svc h false
    | none => s.openHead svc
  else s.startRound svc

/-- Placement of a record (R134). -/
def State.tryPlace (s : State) (svc : Service) (r : PatchRec) : StoreRun :=
  match s.headPage with
  | some h => if s.fits h r.length then s.beginRecord svc false r h else s.makeRoom svc
  | none => s.makeRoom svc

/-- The next copy of a reclaim, or the victim's erase when no current record is left in it (R135). -/
def State.nextCopy (s : State) (svc : Service) (v : PageId) : StoreRun :=
  match s.firstCurrent v, s.headPage with
  | none, _ => s.eraseVictim svc v
  | some l, some h =>
    if s.fits h (s.recordLength l) then s.begin svc (.copyRead l) (.read l.page l.off (4 * s.recordLength l))
    else s.storeFault svc
  | some _, none => s.storeFault svc

/-! ### The head and the spare in the start-up scan (R150) -/

/-- The spare: while no ERASED patch page stands, and the store is not read-only, a reclaim round runs. -/
def State.scanSpare (s : State) (svc : Service) : StoreRun :=
  if s.pst.readOnly = true ∨ s.patchIn .erased ≠ [] then s.scanCal svc else s.startRound svc

/-- The read-only test, then the spare. -/
def State.scanTest (s : State) (svc : Service) : StoreRun := s.readOnlyTest.scanSpare svc

/-- Program the FULL bytes of the head candidates that are not the newest. -/
def State.headNext (s : State) (svc : Service) : List PageId → StoreRun
  | [] => s.scanTest svc
  | q :: rest => s.begin svc (.headFull rest) (.program q 1 0x00 .full)

/-- Set the state of a page in the page table. -/
def classPage (st : PageState) (s : State) (p : PageId) : State := s.putPage p { s.page p with state := st }

/-- The head: the newest candidate, the others being FULL; with none, a new head is opened; with no ERASED page either,
the store becomes read-only.  The FULL bytes of the others are programmed newest first: R150 gives no order (the
model's choice, log 25). -/
def State.scanHead (s : State) (svc : Service) : StoreRun :=
  match (s.logOrder (s.patchIn .candidate)).reverse with
  | c :: others => (classPage .head (others.foldl (classPage .full) s) c).headNext svc others
  | [] =>
    if s.patchIn .erased = [] then State.scanTest { s with pst := { s.pst with readOnly := true } } svc
    else s.openHead svc

/-! ### The walk (R149) -/

/-- Read the next page of the walk, or settle the head after the last one. -/
def State.walkNext (s : State) (svc : Service) : List PageId → StoreRun
  | [] => s.scanHead svc
  | p :: rest => s.begin svc (.walkRead p rest) (.read p 0 512)

/-- Whether a record length is one that a patch page may hold (R149). -/
def lengthKnown (units : Nat) : Bool := units = 2 || units = 10 || units = 12 || units = 14 || units = 16

/-- Whether the record at an offset of a page's bytes is sealed, agrees with its flags and names a slot, and is not
retired: it is then offered to the index (R149). -/
def offered (b : List Byte) (off : Nat) : Bool :=
  b.getD (off + 1) 0xFF = 0 && b.getD (off + 2) 0 = 0xFF
    && lengthOfFlags (b.getD (off + 4) 0) = some (b.getD (off + 5) 0).toNat && decide ((b.getD (off + 3) 0).toNat < 200)

/-- The walk of a page whose bytes are in the buffer, from an offset, over at most `fuel` records (R149); `rest` are
the pages to be walked after it. -/
def State.walk (svc : Service) (p : PageId) (rest : List PageId) : Nat → Nat → State → StoreRun
  | 0, _, s => s.walkNext svc rest
  | fuel + 1, off, s =>
    let b := s.pst.buffer
    let units := (b.getD (off + 5) 0).toNat
    if b.getD off 0xFF = 0xFF then (s.putPage p { s.page p with writePos := off }).walkNext svc rest
    else if lengthKnown units = false ∨ Config.pageSize < off + 4 * units then
      if b.getD 1 0 = 0xFF then
        (classPage .full s p).begin svc (.walkProgram p none rest) (.program p 1 0x00 .full)
      else (classPage .full s p).walkNext svc rest
    else if offered b off then
      let slot : SlotId := clampFin 199 (b.getD (off + 3) 0).toNat
      match tget s.pst.index slot with
      | some old => s.begin svc (.walkProgram p (some off) rest) (.program old.page (old.off + 2) 0x00 .retired)
      | none => (s.putIndex slot ⟨p, off⟩).walk svc p rest fuel (off + 4 * units)
    else s.walk svc p rest fuel (off + 4 * units)

/-- No page holds more records than this: the shortest is 8 bytes. -/
def walkFuel : Nat := 64

/-- The walk goes on after the record at `base` has taken the entry of its slot (R149). -/
def State.walkAfter (s : State) (svc : Service) (p : PageId) (base : Nat) (rest : List PageId) : StoreRun :=
  let b := s.pst.buffer
  let slot : SlotId := clampFin 199 (b.getD (base + 3) 0).toNat
  (s.putIndex slot ⟨p, base⟩).walk svc p rest walkFuel (base + 4 * (b.getD (base + 5) 0).toNat)

/-! ### The classification (R148) -/

/-- One past the newest sequence of a list of pages in log order, or 0 without a page. -/
def State.seqAfter (s : State) (l : List PageId) : BitVec 16 :=
  match l.reverse with
  | p :: _ => (s.page p).seq + 1
  | [] => 0

/-- The pages the walk takes: FULL pages and head candidates, in log order (R149). -/
def State.walkPages (s : State) : List PageId := s.logOrder (s.patchIn .full ++ s.patchIn .candidate)

/-- The classification is over: the sequence counters are set and the walk begins (R148, R149). -/
def State.classified (s : State) (svc : Service) : StoreRun :=
  let s := { s with pst :=
    { s.pst with seqPatch := s.seqAfter s.walkPages, seqCal := s.seqAfter s.usedCal.reverse } }
  s.walkNext svc s.walkPages

/-- Classify the page after `p`. -/
def State.scanNext (s : State) (svc : Service) (p : PageId) : StoreRun :=
  if h : p.val + 1 < 64 then s.begin svc (.scanHeader ⟨p.val + 1, h⟩) (.read ⟨p.val + 1, h⟩ 0 8)
  else s.classified svc

/-- The page table entry of a committed header (R148, R204). -/
def headerEntry (p : PageId) (b : List Byte) : PageEntry where
  state := if isPatch p then (if b.getD 1 0xFF = 0xFF then .candidate else .full) else .used
  eraseCount := ofLe ((b.drop 3).take 3)
  seq := BitVec.ofNat 16 (ofLe ((b.drop 6).take 2))
  writePos := 8
  headerOk := true

/-- Erase a page that cannot be classified (R148). -/
def State.scanErase (s : State) (svc : Service) (p : PageId) : StoreRun :=
  s.begin svc (.scanErase p) (s.eraseStep p)

/-- The header of a page is in the buffer (R148). -/
def State.headerRead (s : State) (svc : Service) (p : PageId) : StoreRun :=
  let b := s.pst.buffer
  if b.getD 0 0xFF = 0 ∧ b.getD 2 0 = regionOf p then (s.putPage p (headerEntry p b)).scanNext svc p
  else if b.all (· == 0xFF) then s.begin svc (.scanWhole p) (.read p 0 512)
  else s.scanErase svc p

/-- The whole of a page with a blank header is in the buffer (R148). -/
def State.wholeRead (s : State) (svc : Service) (p : PageId) : StoreRun :=
  if s.pst.buffer.all (· == 0xFF) then (s.putPage p { s.page p with state := .erased, eraseCount := 0 }).scanNext svc p
  else s.scanErase svc p

/-! ### Service (R139 to R147) -/

/-- The next candidate page of a STORE_CAL: neither BAD nor current (R146). -/
def State.calNext (s : State) (svc : Service) : List PageId → StoreRun
  | [] => s.storeFault svc
  | p :: rest =>
    if (s.page p).state = .bad ∨ s.pst.currentCal = some p then s.calNext svc rest
    else s.begin { svc with op := .storeCal rest } (.calErase p) (s.eraseStep p)

/-- Read the record at a place (R142, R143). -/
def State.readRecord (s : State) (svc : Service) (l : Loc) : StoreRun :=
  s.begin svc .recordRead (.read l.page l.off (4 * s.recordLength l))

/-- The operation in service takes its first flash step (R139 to R147); REVERT_CAL without an older page ends without
one. DESIGN CHOICE, unsafe (log 22): R146 and R147 say only "in service", so where the operation waited for a step left
by a RESTART, STORE_CAL's target and REVERT_CAL's older pages are chosen here, at that step's completion, not at entry. -/
def State.beginOp (s : State) (svc : Service) : StoreRun :=
  match svc.op with
  | .write r => if s.pst.readOnly then s.storeFault svc else s.tryPlace svc r
  | .recall _ l => s.readRecord svc l
  | .info l => s.readRecord svc l
  | .storeCal _ => s.calNext svc s.ringOrder
  | .revertCal _ =>
    match s.pst.currentCal with
    | none => .done .nothing [] s
    | some c =>
      match s.olderCal c with
      | p :: rest => s.readCal svc p rest
      | [] => .done .nothing [] s
  | .scan => .going s

/-- What a queue entry becomes when it enters service: an end without a flash step, or an operation (R140 to R147). -/
inductive Entered where
  | ends (code : ResultCode) (data : List Byte)
  | serves (op : StoreOp)
  deriving DecidableEq, Repr

/-- Entering service: the read-only test, the lookup and the part read (R138, R140 to R143, R147). -/
def State.entered (s : State) : StoreReq → Entered
  | .store part slot name voicing =>
    if s.pst.readOnly then .ends .storeFault [] else .serves (.write (s.storeRecord part slot name voicing))
  | .eraseSlot slot =>
    if s.pst.readOnly then .ends .storeFault []
    else
      match s.lookup slot with
      | some _ => .serves (.write (tombstoneRecord slot))
      | none => .ends .emptySlot []
  | .recall slot part =>
    match s.lookup slot with
    | some l => .serves (.recall part l)
    | none => .ends .emptySlot []
  | .slotInfo slot =>
    match s.lookup slot with
    | some l => .serves (.info l)
    | none => .ends .emptySlot [0]
  | .storeCal => .serves (.storeCal [])
  | .revertCal => if s.pst.currentCal = none then .ends .nothing [] else .serves (.revertCal [])

/-- An entry enters service.  While a step left by a RESTART is in progress the operation waits for its completion
(R139). -/
def State.startService (s : State) (e : StoreEntry) : StoreRun :=
  match s.entered e.req with
  | .ends code data => .done code data s
  | .serves op =>
    let svc : Service := ⟨op, .waiting, none, 0⟩
    if s.pst.step.isSome then .going (s.putService (some svc)) else s.beginOp svc

/-- The head entry leaves the queue with its result written, and nothing is in service (R139, R180). -/
def State.endHead (s : State) (code : ResultCode) (data : List Byte) : State :=
  match s.rqu.queue with
  | e :: rest =>
    State.putService { s.writeResult e.area e.cell code data with rqu := { queue := rest } } none
  | [] => s.putService none

/-- The state after an event's work of the store: an operation that ends lets the next entry enter service in the same
event, over at most `fuel` entries (R139). -/
def StoreRun.settle : Nat → StoreRun → State
  | _, .going s => s
  | 0, .done code data s => s.endHead code data
  | fuel + 1, .done code data s =>
    let s := s.endHead code data
    match s.rqu.queue with
    | e :: _ => StoreRun.settle fuel (s.startService e)
    | [] => s

/-! ### Program completion -/

/-- A page with an incomplete header: FULL in the patch region, USED in the ring (R136, R146). -/
def State.spoilPage (s : State) (p : PageId) : State :=
  s.putPage p { s.page p with state := if isPatch p then .full else .used, headerOk := false }

/-- A page whose header has committed: the new head, or a USED calibration page (R131). -/
def State.commitPage (s : State) (p : PageId) : State :=
  s.putPage p
    { s.page p with state := if isPatch p then .head else .used, writePos := 8, headerOk := true }

/-- What the completion of a program step does to the page table, the index and the calibration generation, by the role
of its byte; `ok` says that the byte reads back as programmed (R133, R134, R136, R146). -/
def State.programEffect (s : State) (p : PageId) (role : ByteRole) (ok : Bool) : State :=
  match role with
  | .header last => if ok then (if last then s.commitPage p else s) else s.spoilPage p
  | .full => classPage .full s p
  | .recOpen units => s.putPage p { s.page p with writePos := (s.page p).writePos + 4 * units }
  | .recLength | .recByte | .retired | .calByte => s
  | .recSealed slot base => if ok then s.putIndex slot ⟨p, base⟩ else s
  | .calSealed => if ok then { s with pst := { s.pst with currentCal := some p } } else s

/-- Whether a mismatch on a byte counts toward the limit of an operation (R136). -/
def ByteRole.counts : ByteRole → Bool
  | .retired | .full => false
  | .header _ | .recOpen _ | .recLength | .recByte | .recSealed _ _ | .calByte | .calSealed => true

/-- A mismatch on OPEN or length: the rest of the page cannot be walked (R136). -/
def ByteRole.breaksPage : ByteRole → Bool
  | .recOpen _ | .recLength => true
  | .header _ | .full | .recByte | .recSealed _ _ | .retired | .calByte | .calSealed => false

/-- The operation goes on after its first mismatch, on a byte of a page (R136, R146, R150). -/
def State.retry (s : State) (svc : Service) (p : PageId) (role : ByteRole) : StoreRun :=
  let copy := svc.victim.isSome
  if role.breaksPage then s.fillHead svc p copy
  else
    match svc.phase, svc.op, svc.victim with
    | .record _ _, _, some v => s.nextCopy svc v
    | .opening _ _, .write _, some _ => s.startRound { svc with victim := none }
    | .opening _ _, .scan, some _ => s.startRound { svc with victim := none }
    | .opening _ _, .scan, none => s.scanHead svc
    | _, .write r, _ => s.tryPlace svc r
    | _, .storeCal ring, _ => s.calNext svc ring
    | _, _, _ => s.storeFault svc

/-- The operation ends at its second mismatch (R136); a head whose OPEN or length byte failed takes no more records. -/
def State.secondMismatch (s : State) (svc : Service) (p : PageId) (role : ByteRole) : StoreRun :=
  if role.breaksPage then (classPage .full s p).storeFault svc else s.storeFault svc

/-- A mismatch in the operation in service (R136). -/
def State.mismatch (s : State) (svc : Service) (p : PageId) (role : ByteRole) : StoreRun :=
  if svc.mismatches = 0 then s.retry { svc with mismatches := 1 } p role else s.secondMismatch svc p role

/-- A record has been sealed, or its page opened: the operation's work on a head goes on (R134, R135, R150). -/
def State.headReady (s : State) (svc : Service) : StoreRun :=
  match svc.victim, svc.op with
  | some v, _ => s.nextCopy svc v
  | none, .write r => s.tryPlace svc r
  | none, _ => s.scanTest svc

/-- The operation goes on after a program step whose byte took, or whose mismatch is disregarded; `old` is the record
that the index named for the slot of a sealed record before its seal. -/
def State.programmed (s : State) (svc : Service) (p : PageId) (old : Option Loc) : StoreRun :=
  match svc.phase with
  | .record copy (b :: todo) => s.beginTodo svc (.record copy) p (b :: todo)
  | .record true [] => s.headReady svc
  | .record false [] =>
    match old with
    | some l => s.begin svc .retiring (.program l.page (l.off + 2) 0x00 .retired)
    | none => .done .ok [] s
  | .retiring => .done .ok [] s
  | .markFull true => s.storeFault svc
  | .markFull false =>
    match svc.victim, svc.op with
    | none, .write r => s.tryPlace svc r
    | _, _ => s.openHead svc
  | .opening q (b :: todo) => s.beginTodo svc (.opening q) q (b :: todo)
  | .opening q [] =>
    match svc.op with
    | .storeCal _ => s.beginTodo svc (.calRecord q) q (calTodo s.pst.buffer)
    | _ => s.headReady svc
  | .calRecord q (b :: todo) => s.beginTodo svc (.calRecord q) q (b :: todo)
  | .calRecord _ [] => .done .ok [] s
  | .walkProgram q (some base) rest => s.walkAfter svc q base rest
  | .walkProgram _ none rest => s.walkNext svc rest
  | .headFull rest => s.headNext svc rest
  | .waiting | .copyRead _ | .erasing | .recordRead | .calErase _ | .calRead _ _ | .scanHeader _ | .scanWhole _
  | .scanErase _ | .walkRead _ _ => .going s

/-- The slot of a sealed record had this record before. -/
def State.replaced (s : State) : ByteRole → Option Loc
  | .recSealed slot _ => tget s.pst.index slot
  | _ => none

/-- A program step that no operation owns completes: a header cut short leaves its page with an incomplete header
(R151). -/
def State.leftoverProgram (s : State) (p : PageId) (role : ByteRole) : State :=
  match role with
  | .header false => s.spoilPage p
  | _ => s

/-- What the store does at the completion of a program step on byte `off` of page `p`, which reads back `actual`
(R130, R136, R139, R151). -/
def State.programRun (s : State) (p : PageId) (off : Nat) (value : Byte) (role : ByteRole) (actual : Byte) :
    StoreRun :=
  let ok := actual = value
  let old := s.replaced role
  let s := ((s.setFlash p off actual).putStep none).programEffect p role ok
  match s.pst.service with
  | none => .going (s.leftoverProgram p role)
  | some svc =>
    if svc.phase = .waiting then (s.leftoverProgram p role).beginOp svc
    else if ok ∨ role.counts = false then s.programmed svc p old
    else s.mismatch svc p role

/-! ### Erase completion -/

/-- The bytes of a page after an erase: blank but for the residue. -/
def State.erasePage (s : State) (p : PageId) (residue : List (Fin 512 × Byte)) : State :=
  residue.foldl (fun s r => s.setFlash p r.1.val r.2) (s.blankPage p)

/-- The page table after an erase: ERASED with its count one greater, or BAD with the read-only test (R131, R135,
R137). -/
def State.eraseEffect (s : State) (p : PageId) (blank : Bool) : State :=
  let e := s.page p
  if blank then
    s.putPage p
      { e with state := .erased, eraseCount := min (e.eraseCount + 1) Config.eraseCountMax, headerOk := true }
  else (s.putPage p { e with state := .bad }).readOnlyTest

/-- The operation goes on after its erase; `blank` says that the blank check passed (R135, R137, R146, R148, R150). -/
def State.erased (s : State) (svc : Service) (blank : Bool) : StoreRun :=
  match svc.phase with
  | .erasing =>
    let svc := { svc with victim := none }
    match svc.op with
    | .write r => if s.pst.readOnly then s.storeFault svc else s.tryPlace svc r
    | _ => s.scanSpare svc
  | .calErase p => if blank then (s.putBuffer s.calBytes).openPage svc p
      else
        match svc.op with
        | .storeCal ring => s.calNext svc ring
        | _ => s.storeFault svc
  | .scanErase p =>
    if blank then (s.putPage p { s.page p with eraseCount := 0 }).scanNext svc p else s.scanNext svc p
  | .waiting | .record _ _ | .markFull _ | .opening _ _ | .retiring | .copyRead _ | .recordRead | .calRecord _ _
  | .calRead _ _ | .scanHeader _ | .scanWhole _ | .walkRead _ _ | .walkProgram _ _ _ | .headFull _ => .going s

/-- What the store does at the completion of an erase (R130, R137, R139, R151). -/
def State.eraseRun (s : State) (p : PageId) (residue : List (Fin 512 × Byte)) : StoreRun :=
  let blank := residue.isEmpty
  let s := ((s.erasePage p residue).putStep none).eraseEffect p blank
  match s.pst.service with
  | none => .going s
  | some svc => if svc.phase = .waiting then s.beginOp svc else s.erased svc blank

/-! ### Read completion -/

/-- The record of a RECALL or SLOT_INFO is in the buffer (R108, R142, R143). -/
def State.recordRead (s : State) (svc : Service) : StoreRun :=
  let r := bufferRecord s.pst.buffer
  match svc.op with
  | .recall part _ =>
    if r.sumOk then .done .ok [] (s.loadPart (r.destination part) r.partData) else .done .corrupt [] s
  | .info _ => .done (if r.sumOk then .ok else .corrupt) r.infoData s
  | .write _ | .storeCal _ | .revertCal _ | .scan => .going s

/-- A calibration page's record is in the buffer (R93, R147, R150). -/
def State.calRead (s : State) (svc : Service) (p : PageId) (rest : List PageId) : StoreRun :=
  let b := s.pst.buffer
  if calValid b then
    let s := s.loadCal (calTables b) (calMasks b) (calTarget b)
    let s := { s with pst := { s.pst with currentCal := some p } }
    match svc.op with
    | .scan => .going s.scanEnd
    | _ => .done .ok [] s
  else
    match rest, svc.op with
    | q :: rest, _ => s.readCal svc q rest
    | [], .scan => .going s.scanEnd
    | [], _ => .done .nothing [] s

/-- The operation goes on after its read. -/
def State.readDone (s : State) (svc : Service) : StoreRun :=
  match svc.phase with
  | .recordRead => s.recordRead svc
  | .copyRead _ =>
    match s.headPage with
    | some h => s.beginRecord svc true (bufferRecord s.pst.buffer) h
    | none => s.storeFault svc
  | .calRead p rest => s.calRead svc p rest
  | .scanHeader p => s.headerRead svc p
  | .scanWhole p => s.wholeRead svc p
  | .walkRead p rest => s.walk svc p rest walkFuel 8
  | .waiting | .record _ _ | .markFull _ | .opening _ _ | .retiring | .erasing | .calErase _ | .calRecord _ _
  | .scanErase _ | .walkProgram _ _ _ | .headFull _ => .going s

/-- What the store does at the completion of a read (R130, R139, R151). -/
def State.readRun (s : State) (p : PageId) (off len : Nat) : StoreRun :=
  let s := (s.putBuffer (s.flashBytes p off len)).putStep none
  match s.pst.service with
  | none => .going s
  | some svc => if svc.phase = .waiting then s.beginOp svc else s.readDone svc

/-- RESTART's action in the store (R151, R185): the queue is emptied and the operation in service stops, its step in
progress going on. -/
def State.restartStore (s : State) : State := State.putService { s with rqu := { queue := [] } } none

end Sys2Proof.Machine
end

