-- ==== Sys2Proof/Machine/Requests.lean ====
section
/-! DEFINITION. The Request Unit: the request kinds and their checks, the effect and result of each kind, admission of
deferred requests, and the handling of a copied request cell (R172 to R185). -/

namespace Sys2Proof.Machine

/-- The eighteen request kinds (R174). -/
inductive ReqKind where
  | setParam | setVoicing | setKeyboard | selectEdit | mapKnob | mapSwitch | partExport | partImport | clearRange
  | tune | tuneAbort | recall | store | eraseSlot | slotInfo | storeCal | revertCal | storeStatus
  deriving DecidableEq, Repr

/-- The kind codes (R174). -/
def ReqKind.code : ReqKind → Byte
  | .setParam => 0x01
  | .setVoicing => 0x02
  | .setKeyboard => 0x03
  | .selectEdit => 0x04
  | .mapKnob => 0x05
  | .mapSwitch => 0x06
  | .partExport => 0x07
  | .partImport => 0x08
  | .clearRange => 0x09
  | .tune => 0x10
  | .tuneAbort => 0x11
  | .recall => 0x20
  | .store => 0x21
  | .eraseSlot => 0x22
  | .slotInfo => 0x23
  | .storeCal => 0x24
  | .revertCal => 0x25
  | .storeStatus => 0x26

/-- The argument byte counts (R174). -/
def ReqKind.argBytes : ReqKind → Byte
  | .setParam | .mapKnob | .partExport | .partImport | .clearRange | .store => 3
  | .setVoicing => 9
  | .setKeyboard => 4
  | .selectEdit | .eraseSlot | .slotInfo => 1
  | .mapSwitch | .recall => 2
  | .tune => 8
  | .tuneAbort | .storeCal | .revertCal | .storeStatus => 0

/-- Every kind. -/
def allKinds : List ReqKind :=
  [.setParam, .setVoicing, .setKeyboard, .selectEdit, .mapKnob, .mapSwitch, .partExport, .partImport, .clearRange,
    .tune, .tuneAbort, .recall, .store, .eraseSlot, .slotInfo, .storeCal, .revertCal, .storeStatus]

/-- The kind a code names (R174). -/
def kindOfCode (b : Byte) : Option ReqKind := allKinds.find? fun k => k.code = b

/-! ### Immediate requests (R176) -/

/-- A request of cell `i` of area `n` ends with a result without data. -/
def State.answer (s : State) (n : AreaId) (i : Nat) (code : ResultCode) : State := s.writeResult n i code []

/-- SET_PARAM (R99, R174). -/
def State.setParam (s : State) (n : AreaId) (i : Nat) (id : Byte) (value : BitVec 16) : State :=
  if h : id.toNat < 40 then (s.writeDetaching ⟨id.toNat, h⟩ value.toNat).answer n i .ok
  else s.answer n i .badArgument

/-- SET_VOICING (R102, R174), with the looks of background channels (R87). -/
def State.setVoicing (s : State) (n : AreaId) (i : Nat) (part : Byte) (block : Vector Byte 8) : State :=
  match partOfCode part with
  | some p => (State.looksAfter s (s.changeVoicing p (conditionVoicing block))).answer n i .ok
  | none => s.answer n i .badArgument

/-- SET_KEYBOARD (R41), with the looks of background channels (R87). -/
def State.setKeyboard (s : State) (n : AreaId) (i : Nat) (mode split : Byte) (map : BitVec 16) : State :=
  (State.looksAfter s (s.setKeyboardConfig (kbOfCode mode) (splitOfByte split) (map.setWidth 12))).answer n i .ok

/-- Set the edit part. -/
def State.putEdit (s : State) (p : Part) : State := { s with prb := { s.prb with edit := p } }

/-- SELECT_EDIT (R103, R174). -/
def State.selectEdit (s : State) (n : AreaId) (i : Nat) (part : Byte) : State :=
  match partOfCode part with
  | some p => (s.putEdit p).detachEdit.answer n i .ok
  | none => s.answer n i .badArgument

/-- A knob's new mode and target, with its catch state and side (R122). -/
def State.remapKnob (s : State) (k : KnobId) (mode : KnobMode) (target : Target) : State :=
  let r := { s.knob k with mode := mode, target := target, detached := false }
  match mode, s.resolve target with
  | .catchMode, some p => (s.putKnob k (r.sideAgainst (tget s.prb.params p))).imageKnob k
  | _, _ => (s.putKnob k r).imageKnob k

/-- MAP_KNOB (R122, R174). -/
def State.mapKnob (s : State) (n : AreaId) (i : Nat) (knob target mode : Byte) : State :=
  if h : knob.toNat < 48 then
    match targetOfCode target with
    | some t => (s.remapKnob ⟨knob.toNat, h⟩ (knobModeOfCode mode) t).answer n i .ok
    | none => s.answer n i .badArgument
  else s.answer n i .badArgument

/-- Replace a switch's function (R127). -/
def State.putSwitchFunc (s : State) (j : SwitchId) (f : SwitchFunc) : State :=
  { s with psc := { s.psc with switches := tmod s.psc.switches j fun w => { w with func := f } } }

/-- MAP_SWITCH (R127, R174). -/
def State.mapSwitch (s : State) (n : AreaId) (i : Nat) (switch func : Byte) : State :=
  if h : switch.toNat < 66 then (s.putSwitchFunc ⟨switch.toNat, h⟩ (switchFuncOfCode func)).answer n i .ok
  else s.answer n i .badArgument

/-- The part and offset of an export or import range that is valid (R106, R174). -/
def rangeOf (part : Byte) (offset : BitVec 16) : Option Part :=
  if 0x0080 ≤ offset.toNat ∧ offset.toNat ≤ 0x1FC8 then partOfCode part else none

/-- PART_EXPORT (R106). -/
def State.partExport (s : State) (n : AreaId) (i : Nat) (part : Byte) (offset : BitVec 16) : State :=
  match rangeOf part offset with
  | some p => (s.pokes offset.toNat (s.exportBytes p)).answer n i .ok
  | none => s.answer n i .badArgument

/-- PART_IMPORT (R107), with the looks of background channels (R87). -/
def State.partImport (s : State) (n : AreaId) (i : Nat) (part : Byte) (offset : BitVec 16) : State :=
  match rangeOf part offset with
  | some p => (State.looksAfter s (s.loadPart p (importData (s.peeks offset.toNat 56)))).answer n i .ok
  | none => s.answer n i .badArgument

/-- One flag of every oscillator as a 24-bit mask: bit 2v for voice v's A flag, bit 2v + 1 for its B flag (R55). -/
def State.rangeMask (s : State) (a b : Voice → Bool) : Nat :=
  allVoices.foldr (fun v m => (a (s.voice v)).toNat + 2 * (b (s.voice v)).toNat + 4 * m) 0

/-- The sticky flags as a mask (R55). -/
def State.stickyMask (s : State) : Nat := s.rangeMask Voice.stickyA Voice.stickyB

/-- The dynamic flags as a mask (R55). -/
def State.dynamicMask (s : State) : Nat := s.rangeMask Voice.dynA Voice.dynB

/-- Clear the sticky flags that a mask names, on one voice (R55). -/
def clearSticky (mask : BitVec 24) (s : State) (v : VoiceId) : State :=
  let r := s.voice v
  s.putVoice v
    { r with
      stickyA := r.stickyA && !mask.getLsbD (oscA v).val
      stickyB := r.stickyB && !mask.getLsbD (oscB v).val }

/-- CLEAR_RANGE (R55). -/
def State.clearRange (s : State) (n : AreaId) (i : Nat) (mask : BitVec 24) : State :=
  (allVoices.foldl (clearSticky mask) s).writeResult n i .ok (leBytes 3 s.stickyMask ++ leBytes 3 s.dynamicMask)

/-- TUNE_ABORT (R92, R176): the job's own cell is written before the request's. -/
def State.tuneAbort (s : State) (n : AreaId) (i : Nat) : State :=
  match s.tun.job with
  | some j => (s.abortJob j).answer n i .ok
  | none => s.answer n i .nothing

/-- The number of pages in a state. -/
def State.pagesIn (s : State) (st : PageState) : Nat :=
  ((List.finRange 64).filter fun p => (s.page p).state = st).length

/-- The slots whose index entry names a patch record (R144). -/
def State.liveSlots (s : State) : Nat := ((List.finRange 200).filter fun k => (s.lookup k).isSome).length

/-- The largest erase count of the page table (R144). -/
def State.maxErase (s : State) : Nat := (List.finRange 64).foldl (fun m p => max m (s.page p).eraseCount) 0

/-- The ten bytes of a STORE_STATUS result (R144, R198). -/
def State.statusData (s : State) : List Byte :=
  [BitVec.ofNat 8 (s.patchIn .erased).length, BitVec.ofNat 8 (s.pagesIn .bad), BitVec.ofNat 8 s.liveSlots]
    ++ leBytes 3 s.maxErase
    ++ [BitVec.ofNat 8 s.pst.readOnly.toNat, BitVec.ofNat 8 s.pst.currentCal.isSome.toNat]
    ++ leBytes 2
      (match s.pst.currentCal with
      | some p => (s.page p).seq.toNat
      | none => 0)

/-- STORE_STATUS (R144). -/
def State.storeStatus (s : State) (n : AreaId) (i : Nat) : State := s.writeResult n i .ok s.statusData

/-! ### Deferred requests (R177, R178) -/

/-- A store queue entry that a tune job excludes, and that excludes a tune job (R177, R178). -/
def StoreReq.calClass : StoreReq → Bool
  | .storeCal | .revertCal => true
  | .recall _ _ | .store _ _ _ _ | .eraseSlot _ | .slotInfo _ => false

/-- TUNE (R177): BUSY while a job exists or a STORE_CAL or REVERT_CAL is queued; otherwise the job is created and
starts, and the cell is TAKEN. -/
def State.tune (s : State) (n : AreaId) (i : Nat) (oscMask : BitVec 32) (anchorMask : BitVec 16)
    (mode background : Byte) : State :=
  let oscs : BitVec 24 := oscMask.setWidth 24
  let anchors : BitVec 9 := anchorMask.setWidth 9
  if oscs = 0 ∨ anchors = 0 then s.answer n i .badArgument
  else if s.tun.job.isSome = true ∨ s.rqu.queue.any (fun e => e.req.calClass) = true then s.answer n i .busy
  else
    (s.startJob (newJob n i oscs anchors (if mode = 1 then .touch else .full) (background != 0))).markCell n i markTaken

/-- Join the tail of the store queue with the cell TAKEN; an entry that joins an empty queue enters service in the same
event (R139, R178). -/
def State.join (s : State) (e : StoreEntry) : State :=
  let s' := State.markCell { s with rqu := { queue := s.rqu.queue ++ [e] } } e.area e.cell markTaken
  match s.rqu.queue with
  | [] => StoreRun.settle Config.queueDepth (s'.startService e)
  | _ :: _ => s'

/-- Admission of a store-class request (R178). -/
def State.enqueueReq (s : State) (n : AreaId) (i : Nat) (req : StoreReq) : State :=
  if req.calClass = true ∧ s.tun.job.isSome = true then s.answer n i .busy
  else if Config.queueDepth ≤ s.rqu.queue.length then s.answer n i .busy
  else s.join ⟨req, n, i⟩

/-- RECALL (R142, R174). -/
def State.recall (s : State) (n : AreaId) (i : Nat) (slot part : Byte) : State :=
  if h : slot.toNat < 200 then
    if 1 ≤ part.toNat ∧ part.toNat ≤ 3 then s.enqueueReq n i (.recall ⟨slot.toNat, h⟩ part)
    else s.answer n i .badArgument
  else s.answer n i .badArgument

/-- STORE (R140, R174): flag bit 0 includes the name, bit 1 the voicing. -/
def State.store (s : State) (n : AreaId) (i : Nat) (part slot flags : Byte) : State :=
  match partOfCode part with
  | some p =>
    if h : slot.toNat < 200 then s.enqueueReq n i (.store p ⟨slot.toNat, h⟩ (flags.getLsbD 0) (flags.getLsbD 1))
    else s.answer n i .badArgument
  | none => s.answer n i .badArgument

/-- ERASE_SLOT (R141, R174). -/
def State.eraseSlot (s : State) (n : AreaId) (i : Nat) (slot : Byte) : State :=
  if h : slot.toNat < 200 then s.enqueueReq n i (.eraseSlot ⟨slot.toNat, h⟩) else s.answer n i .badArgument

/-- SLOT_INFO (R143, R174). -/
def State.slotInfo (s : State) (n : AreaId) (i : Nat) (slot : Byte) : State :=
  if h : slot.toNat < 200 then s.enqueueReq n i (.slotInfo ⟨slot.toNat, h⟩) else s.answer n i .badArgument

/-- STORE_CAL (R146). -/
def State.storeCal (s : State) (n : AreaId) (i : Nat) : State := s.enqueueReq n i .storeCal

/-- REVERT_CAL (R147). -/
def State.revertCal (s : State) (n : AreaId) (i : Nat) : State := s.enqueueReq n i .revertCal

/-! ### A copied request cell -/

/-- A request of a kind with its copied arguments (R174, R198). -/
def State.carryOut (s : State) (n : AreaId) (c : RequestCell) (k : ReqKind) : State :=
  let i := c.index
  let word (at' : Nat) : BitVec 16 := BitVec.ofNat 16 (c.argLe at' 2)
  match k with
  | .setParam => s.setParam n i (c.arg 0) (word 1)
  | .setVoicing => s.setVoicing n i (c.arg 0) (vec8 c.args 1)
  | .setKeyboard => s.setKeyboard n i (c.arg 0) (c.arg 1) (word 2)
  | .selectEdit => s.selectEdit n i (c.arg 0)
  | .mapKnob => s.mapKnob n i (c.arg 0) (c.arg 1) (c.arg 2)
  | .mapSwitch => s.mapSwitch n i (c.arg 0) (c.arg 1)
  | .partExport => s.partExport n i (c.arg 0) (word 1)
  | .partImport => s.partImport n i (c.arg 0) (word 1)
  | .clearRange => s.clearRange n i (BitVec.ofNat 24 (c.argLe 0 3))
  | .tune => s.tune n i (BitVec.ofNat 32 (c.argLe 0 4)) (word 4) (c.arg 6) (c.arg 7)
  | .tuneAbort => s.tuneAbort n i
  | .recall => s.recall n i (c.arg 0) (c.arg 1)
  | .store => s.store n i (c.arg 0) (c.arg 1) (c.arg 2)
  | .eraseSlot => s.eraseSlot n i (c.arg 0)
  | .slotInfo => s.slotInfo n i (c.arg 0)
  | .storeCal => s.storeCal n i
  | .revertCal => s.revertCal n i
  | .storeStatus => s.storeStatus n i

/-- The handling of a copied request cell (R173): kind, length, then arguments. -/
def State.request (s : State) (n : AreaId) (c : RequestCell) : State :=
  match kindOfCode c.kind with
  | none => s.answer n c.index .badKind
  | some k => if c.length = k.argBytes then s.carryOut n c k else s.answer n c.index .badLength

end Sys2Proof.Machine
end

