-- ==== Sys2Proof/Machine/Port.lean ====
section
/-! DEFINITION. The Memory Port and Area Controller: looks, takes, arrival and room events, the host write cycle, RUN
entry, RESTART and device reset (R153 to R171). -/

namespace Sys2Proof.Machine

/-! ### Looks and takes (R164, R165) -/

/-- The active area `n` when it is of a kind. -/
def State.areaOf (s : State) (n : AreaId) (k : AreaKind) : Option Area :=
  match s.active n with
  | some a => if a.kind = k then some a else none
  | none => none

/-- The examine position of an area advances by one cell, and the look of the advance falls due (R164, R165). -/
def State.advance (s : State) (n : AreaId) (a : Area) : State := s.setArea n { a with pos := a.nextPos, lookDue := true }

/-- The take of a request cell: the position advances and the Request Unit handles the copy (R164, R173). -/
def State.takeRequest (s : State) (n : AreaId) (a : Area) (c : RequestCell) : State := (s.advance n a).request n c

/-- A look at the examine position of a NOTE or REQUEST area: a POSTED cell is taken, any other mark is waited on
(R164). -/
def State.look (s : State) (n : AreaId) (a : Area) : State :=
  let at' := a.cellAddr a.pos
  if s.peek at' = markPosted then
    match a.kind with
    | .note => s.takeNote n a (s.copyNote a.pos at')
    | .request => s.takeRequest n a (s.copyRequest a.pos at')
    | .report | .image => s
  else s.setArea n { a with lookDue := false }

/-- The host writes POSTED into the examine cell of an area: the look of the arrival (R164). -/
def State.arrive (s : State) (n : AreaId) : State :=
  match s.active n with
  | some a =>
    match a.kind with
    | .note | .request => s.look n a
    | .report | .image => s
  | none => s

/-- The look that follows an advance or RUN entry, where it is due (R162, R165; log 8). -/
def State.dueLook (s : State) (n : AreaId) : State :=
  match s.active n with
  | some a =>
    match a.kind with
    | .note | .request => if a.lookDue then s.look n a else s
    | .report | .image => s
  | none => s

/-- The host writes a request into the examine cell of area `n` and posts it (R164, R172): kind, length, arguments,
then the mark. -/
def State.postRequest (s : State) (a : Area) (kind : ReqKind) (args : List Byte) : State :=
  let at' := a.cellAddr a.pos
  ((s.pokes (at' + 1) [kind.code, kind.argBytes]).pokes (at' + 6) args).poke at' markPosted

/-- The take of a request cell with these contents: posted by the host at the examine position of REQUEST area `n`,
taken at its arrival, and carried out as `act` says for cell `i`.  Nothing where `n` is no active REQUEST area
(log 8). -/
def State.requestCommand (s : State) (n : AreaId) (kind : ReqKind) (args : List Byte) (act : State → Nat → State) :
    State :=
  match s.areaOf n .request with
  | some a => act ((s.postRequest a kind args).advance n a) a.pos
  | none => s

/-- The host writes a note cell's bytes into the examine cell of an area and posts it (R164, R197). -/
def State.postNote (s : State) (a : Area) (c : NoteCell) : State :=
  let at' := a.cellAddr a.pos
  (s.pokes (at' + 1) ([c.kind, c.part, c.key, c.velocity] ++ leBytes 2 c.bend.toNat ++ [c.source])).poke at' markPosted

/-- The take of a note cell with these contents, at the examine position of NOTE area `n`; fields that the kind does
not read keep what the cell holds.  Nothing where `n` is no active NOTE area (log 8). -/
def State.noteCommand (s : State) (n : AreaId) (fill : NoteCell → NoteCell) : State :=
  match s.areaOf n .note with
  | some a =>
    let c := fill (s.copyNote a.pos (a.cellAddr a.pos))
    (s.postNote a c).takeNote n a c
  | none => s

/-! ### RUN entry (R158 to R162) -/

/-- A setup field read at its width and clamped (R158, R195). -/
def State.setupField (s : State) (off width lo hi : Nat) : Nat := clampNat lo hi (s.peekLe off width)

/-- The setup block, read and conditioned (R158, R195). -/
def State.readSetup (s : State) : Setup where
  gateGap := s.setupField 0x00 1 0 15
  gateHold := s.setupField 0x01 1 0 15
  divider := s.setupField 0x02 1 0 15
  dwell := s.setupField 0x03 1 1 63
  targetT := s.setupField 0x04 4 120000 500000
  tolerance := s.setupField 0x08 2 1 4095
  settle := s.setupField 0x0A 1 1 63
  scanInterval := s.setupField 0x0B 1 1 16
  endZone := s.setupField 0x0C 1 0 32
  deadband := s.setupField 0x0D 1 1 64
  debounce := s.setupField 0x0E 1 1 15
  eraseCode := s.setupField 0x0F 1 0 15

/-- A directory entry as it is read (R159, R195). -/
structure DirEntry where
  kind : Nat
  joins : BitVec 4
  start : Nat
  stop : Nat
  deriving DecidableEq, Repr

/-- The first byte of a directory entry (R159). -/
def entryAddr (n : AreaId) : Nat := 0x0040 + 8 * n.val

/-- Read a directory entry (R159, R195). -/
def State.readEntry (s : State) (n : AreaId) : DirEntry where
  kind := (s.peek (entryAddr n)).toNat
  joins := (s.peek (entryAddr n + 1)).setWidth 4
  start := s.peekLe (entryAddr n + 2) 2
  stop := s.peekLe (entryAddr n + 4) 2

/-- The kind of the area that an entry describes, if it describes one (R159). -/
def DirEntry.areaKind (e : DirEntry) : Option AreaKind :=
  if e.kind = 1 then some .note
  else if e.kind = 2 then some .request
  else if e.kind = 3 then some .report
  else if e.kind = 4 then some .image
  else none

/-- The cell count of an area: floor(4 × (end − start) / s); an IMAGE area has no cells (R159). -/
def cellCount (k : AreaKind) (start stop : Nat) : Nat :=
  match k with
  | .image => 0
  | .note | .request | .report => 4 * (stop - start) / k.cellSize

/-- How many areas of a kind a directory may hold (R160). -/
def AreaKind.limit : AreaKind → Nat
  | .note | .request => 2
  | .report => 4
  | .image => 1

/-- Whether two areas share a unit (R160). -/
def DirEntry.overlaps (d e : DirEntry) : Bool := decide (d.start < e.stop) && decide (e.start < d.stop)

/-- The first check that an entry fails against the entries before it, in the order of R160. -/
def DirEntry.fault (earlier : List DirEntry) (e : DirEntry) : Option DirFault :=
  if e.kind = 0 then none
  else
    match e.areaKind with
    | none => some .kindLimit
    | some k =>
      if e.start < 32 ∨ 2048 < e.stop ∨ e.stop ≤ e.start then some .outOfRange
      else if k ≠ .image ∧ cellCount k e.start e.stop < 2 then some .tooSmall
      else if k = .image ∧ e.stop - e.start < 88 then some .imageSize
      else if earlier.any fun d => d.kind != 0 && d.overlaps e then some .overlap
      else if k.limit ≤ (earlier.filter fun d => d.kind = e.kind).length then some .kindLimit
      else if k = .report ∧ (earlier.any fun d => d.kind = 3 && d.joins &&& e.joins != 0) then some .joinConflict
      else none

/-- Validation of the entries from a list of entry indices, in order, against those before them (R160). -/
def State.validate (s : State) (earlier : List DirEntry) : List AreaId → Option (AreaId × DirFault)
  | [] => none
  | n :: rest =>
    let e := s.readEntry n
    match e.fault earlier with
    | some f => some (n, f)
    | none => s.validate (earlier ++ [e]) rest

/-- The area that an entry describes, as RUN entry records it: position 0, its first look due (R162). -/
def DirEntry.area (e : DirEntry) : Option Area :=
  e.areaKind.map fun k =>
    { kind := k, start := e.start, stop := e.stop, count := cellCount k e.start e.stop, joins := e.joins, pos := 0,
      lookDue := k = .note || k = .request }

/-- The area table of the directory (R162, step 2). -/
def State.readAreas (s : State) : Vector (Option Area) 8 := Vector.ofFn fun n => (s.readEntry n).area

/-- Write the cell count of an entry into its bytes 6 and 7 (R162, step 3). -/
def writeCount (s : State) (n : AreaId) : State :=
  match tget s.mpa.areas n with
  | some a => if a.kind = .image then s else s.pokes (entryAddr n + 6) (leBytes 2 a.count)
  | none => s

/-- The REPORT area that joins a class (R186). -/
def State.joined (s : State) (cls : Nat) : Option AreaId :=
  allAreas.find? fun n =>
    match tget s.mpa.areas n with
    | some a => a.kind = .report && a.joins.getLsbD cls
    | none => false

/-- The Report Unit takes the joined area of each class (R186). -/
def State.takeJoins (s : State) : State :=
  { s with rpu :=
    { s.rpu with
      panelArea := s.joined 0
      tuneArea := s.joined 1
      voiceArea := s.joined 2
      faultArea := s.joined 3 } }

/-- Write the whole image into the IMAGE area, if one exists (R162, step 5; R191). -/
def State.writeImage (s : State) : State :=
  match s.imageBase with
  | some base => s.pokes base s.wholeImage
  | none => s

/-- A RUN entry that fails at entry `n` (R161). -/
def State.runFault (s : State) (n : AreaId) (f : DirFault) : State :=
  State.stateChange { s with mpa := { s.mpa with faultCode := f, faultEntry := n } }

/-- Install setup values and an area table, and enter RUN with fault code 0 at index 0 (R162, steps 1, 2 and 7). -/
def State.install (s : State) (setup : Setup) (areas : Vector (Option Area) 8) : State :=
  { s with mpa :=
    { s.mpa with device := .run, faultCode := .none, faultEntry := 0, setup := setup, areas := areas } }

/-- A RUN entry that passes (R162). -/
def State.runInstall (s : State) : State :=
  let s := s.install s.readSetup s.readAreas
  let s := allAreas.foldl writeCount s
  s.targetCheck.takeJoins.writeImage.beginBaseline.stateChange

/-- RUN entry (R158 to R162). -/
def State.runEntry (s : State) : State :=
  match s.validate [] allAreas with
  | some (n, f) => s.runFault n f
  | none => s.runInstall

/-- RUN written to CONTROL (R157). -/
def State.runCommand (s : State) : State :=
  match s.mpa.device with
  | .setup => s.runEntry
  | .held | .starting | .run => s

/-! ### RESTART (R170) -/

/-- The port's own action: SETUP, every SUMMARY bit clear but bit 8 (R170). -/
def State.restartPort (s : State) : State :=
  State.stateChange { s with mpa := { s.mpa with device := .setup, summary := 0 } }

/-- RESTART: the port and every block (R28, R42, R71, R95, R129, R151, R170, R190).  The panel scanner goes on as it
was. -/
def State.restartAll (s : State) : State :=
  s.restartPort.restartVoices.restartRouter.restartRefresh.restartTuner.restartStore.clearReports

/-- RESTART written to CONTROL (R157). -/
def State.restartCommand (s : State) : State :=
  match s.mpa.device with
  | .run => s.restartAll
  | .held | .starting | .setup => s

/-! ### Host write cycles (R153, R157, R168) -/

/-- A byte written to CONTROL (R157). -/
def State.control (s : State) (x : Byte) : State :=
  if x = 0x01 then s.runCommand else if x = 0x02 then s.restartCommand else s

/-- A byte written by the host at an offset of the window (R153). -/
def State.hostByte (s : State) (off : Nat) (x : Byte) : State :=
  if off < Config.memSize then s.poke off x
  else if off = 0x3FF0 then s.control x
  else if off = 0x3FF1 then s.echo false x
  else if off = 0x3FF2 then s.echo true x
  else if off = 0x3FF3 then s.setEnable false x
  else if off = 0x3FF4 then s.setEnable true x
  else s

/-- The active area whose examined or filled cell has its mark at an offset. -/
def State.markedArea (s : State) (off : Nat) : Option AreaId :=
  allAreas.find? fun n =>
    match s.active n with
    | some a => a.kind != .image && a.cellAddr a.pos = off
    | none => false

/-- The room event of an area: its REPORT area is offered to the Report Unit (R166, R189). -/
def State.roomOffered (s : State) (n : AreaId) : State :=
  match s.areaOf n .report with
  | some _ => s.emit n
  | none => s

/-- What a host write of `x` to the byte at an offset sets off: an arrival, a room event, or nothing (R163, R164,
R166). -/
def State.markWritten (s : State) (off : Nat) (x : Byte) : State :=
  if off < Config.memSize then
    match s.markedArea off with
    | some n => if x = markPosted then s.arrive n else if x = markEmpty then s.roomOffered n else s
    | none => s
  else s

/-- One host write cycle on an open port (R153, R164). -/
def State.hostCycle (s : State) : HostWrite → State
  | .byte off x => (s.hostByte off.toNat x).markWritten off.toNat x
  | .wide off lo hi =>
    if off.toNat % 2 = 0 then
      ((s.hostByte off.toNat lo).hostByte (off.toNat + 1) hi).markWritten off.toNat lo
    else (s.hostByte off.toNat hi).markWritten off.toNat hi
  | .idle _ => s

/-- A host write of a mark to the cell at an area's position, alone or with the byte after it. -/
def State.writeMark (s : State) (a : Area) (mark : Byte) (other : Option Byte) : State :=
  let at' := a.cellAddr a.pos
  match other with
  | some x => (s.poke at' mark).poke (at' + 1) x
  | none => s.poke at' mark

/-! ### Device reset (R152, R171, R207) -/

/-- The flash after a device reset: a program step or an erase in progress is cut off and leaves open values (log 3). -/
def State.cutFlash (s : State) : State :=
  match s.pst.step with
  | some (.program p off _ _) => s.setFlash p off (Config.cutProgramByte s.openUsed)
  | some (.erase p _) =>
    (List.finRange 512).foldl (fun t i => t.setFlash p i.val (Config.cutEraseByte s.openUsed i.val)) s
  | some (.read _ _ _) => s
  | none => s

/-- The DAC code after a device reset: DAC_CS rises while a word is being shifted (log 4). -/
def State.cutDac (s : State) : Code :=
  match s.rfe.slot with
  | some k => if k.strobing then s.rfe.dacOut else Config.cutShiftCode s.openUsed
  | none => s.rfe.dacOut

/-- The held codes after a device reset: SHSTB falls during a channel's dwell (log 4). -/
def State.cutHold (s : State) : Vector Code 128 :=
  match s.rfe.slot with
  | some k => if k.strobing then tset s.rfe.cv k.chan (Config.cutStrobeCode s.openUsed) else s.rfe.cv
  | none => s.rfe.cv

/-- The part takes the values `t` in a device reset: everything but the flash, the DAC and the sample-and-hold channels;
the commands waiting are the surroundings' and stay. -/
def State.resetTo (s t : State) : State :=
  { t with
    rfe := { t.rfe with dacOut := s.cutDac, cv := s.cutHold }
    flash := s.cutFlash.flash
    openUsed := s.openUsed + 1
    pending := s.pending }

/-- The part while RESET is held low (R207): its reset values, no slot, no flash step and no host cycle. -/
def State.heldValues : State :=
  { State.resetValues with mpa := { State.resetValues.mpa with device := .held } }

/-- Device reset (R171, R207): RESET goes low and the part is held, or the reset ends and every block begins. -/
def State.deviceReset (s : State) (held : Bool) : State :=
  s.resetTo (if held then State.heldValues else State.reset)

end Sys2Proof.Machine
end

