-- ==== Sys2Proof/Machine/HostCommands.lean ====
section
/-! DEFINITION. The meanings of the host's commands: device reset, CONTROL, SUMMARY, ENABLE, memory writes, arrivals,
looks and room events (R153 to R171). -/

namespace Sys2Proof.Machine

/-- What every meaning answers. -/
abbrev Answer := Host.Outcome State Fault Refusal

/-- A host write takes effect on an open port; while RESET is held low it is lost (R207). -/
def State.ifOpen (s : State) (f : State → State) : State := if s.portOpen then f s else s

/-- DEVICE_RESET (R171, R207). -/
def execDeviceReset (s : State) (held : Bool := false) : Answer := .next (s.deviceReset held)

/-- RUN (R157 to R162). -/
def execRun (s : State) : Answer := .next s.runCommand

/-- RESTART (R157, R170). -/
def execRestart (s : State) : Answer := .next s.restartCommand

/-- SUMMARY_ECHO (R168). -/
def execSummaryEcho (high : Bool) (data : Byte) (s : State) : Answer := .next (s.ifOpen fun s => s.echo high data)

/-- ENABLE_WRITE (R168). -/
def execEnableWrite (high : Bool) (data : Byte) (s : State) : Answer :=
  .next (s.ifOpen fun s => s.setEnable high data)

/-- HOST_MEMORY_WRITE: one host write cycle, with the arrival or room event it may be (R153, R164, R166). -/
def execHostMemoryWrite (w : HostWrite) (s : State) : Answer := .next (s.ifOpen fun s => s.hostCycle w)

/-- ARRIVAL (R164): the host writes POSTED into the examine cell of area `n`. -/
def execArrival (n : AreaId) (other : Option Byte) (s : State) : Answer :=
  .next
    (match s.active n with
    | some a =>
      match a.kind with
      | .note | .request => (s.writeMark a markPosted other).arrive n
      | .report | .image => s
    | none => s)

/-- LOOK (R162, R165). -/
def execLook (n : AreaId) (s : State) : Answer := .next (s.dueLook n)

/-- ROOM_EVENT (R166, R189): the host writes EMPTY into the fill cell of area `n`. -/
def execRoomEvent (n : AreaId) (other : Option Byte) (s : State) : Answer :=
  .next
    (match s.areaOf n .report with
    | some a => (s.writeMark a markEmpty other).roomOffered n
    | none => s)

end Sys2Proof.Machine
end

