-- ==== Sys2Proof/Machine/NoteCommands.lean ====
section
/-! DEFINITION. The meanings of the note rows: the take of a note cell with the row's fields (R29 to R39). -/

namespace Sys2Proof.Machine

/-- KEY_ON (R35). -/
def execKeyOn (n : AreaId) (part key velocity source : Byte) (s : State) : Answer :=
  .next (s.noteCommand n fun c =>
    { c with kind := kindKeyOn, part := part, key := key, velocity := velocity, source := source })

/-- KEY_OFF (R36). -/
def execKeyOff (n : AreaId) (part key source : Byte) (s : State) : Answer :=
  .next (s.noteCommand n fun c => { c with kind := kindKeyOff, part := part, key := key, source := source })

/-- BEND (R38). -/
def execBend (n : AreaId) (part : Byte) (value : BitVec 16) (source : Byte) (s : State) : Answer :=
  .next (s.noteCommand n fun c => { c with kind := kindBend, part := part, bend := value, source := source })

/-- PEDAL (R37). -/
def execPedal (n : AreaId) (part velocity source : Byte) (s : State) : Answer :=
  .next (s.noteCommand n fun c => { c with kind := kindPedal, part := part, velocity := velocity, source := source })

/-- ALL_OFF (R39). -/
def execAllOff (n : AreaId) (part source : Byte) (s : State) : Answer :=
  .next (s.noteCommand n fun c => { c with kind := kindAllOff, part := part, source := source })

end Sys2Proof.Machine
end

