-- ==== Sys2Proof/Machine/RequestCommands.lean ====
section
/-! DEFINITION. The meanings of the request rows: the take of a request cell of the row's kind, with the row's
arguments in their bytes (R172 to R178, R198). -/

namespace Sys2Proof.Machine

/-- The two bytes of a 16-bit argument. -/
def wordBytes (x : BitVec 16) : List Byte := leBytes 2 x.toNat

/-- SET_PARAM (R99). -/
def execSetParam (n : AreaId) (id : Byte) (value : BitVec 16) (s : State) : Answer :=
  .next (s.requestCommand n .setParam (id :: wordBytes value) fun s i => s.setParam n i id value)

/-- SET_VOICING (R102). -/
def execSetVoicing (n : AreaId) (part : Byte) (block : Vector Byte 8) (s : State) : Answer :=
  .next (s.requestCommand n .setVoicing (part :: block.toList) fun s i => s.setVoicing n i part block)

/-- SET_KEYBOARD (R41). -/
def execSetKeyboard (n : AreaId) (mode split : Byte) (map : BitVec 16) (s : State) : Answer :=
  .next (s.requestCommand n .setKeyboard (mode :: split :: wordBytes map) fun s i => s.setKeyboard n i mode split map)

/-- SELECT_EDIT (R103). -/
def execSelectEdit (n : AreaId) (part : Byte) (s : State) : Answer :=
  .next (s.requestCommand n .selectEdit [part] fun s i => s.selectEdit n i part)

/-- MAP_KNOB (R122). -/
def execMapKnob (n : AreaId) (knob target mode : Byte) (s : State) : Answer :=
  .next (s.requestCommand n .mapKnob [knob, target, mode] fun s i => s.mapKnob n i knob target mode)

/-- MAP_SWITCH (R127). -/
def execMapSwitch (n : AreaId) (switch func : Byte) (s : State) : Answer :=
  .next (s.requestCommand n .mapSwitch [switch, func] fun s i => s.mapSwitch n i switch func)

/-- PART_EXPORT (R106). -/
def execPartExport (n : AreaId) (part : Byte) (offset : BitVec 16) (s : State) : Answer :=
  .next (s.requestCommand n .partExport (part :: wordBytes offset) fun s i => s.partExport n i part offset)

/-- PART_IMPORT (R107). -/
def execPartImport (n : AreaId) (part : Byte) (offset : BitVec 16) (s : State) : Answer :=
  .next (s.requestCommand n .partImport (part :: wordBytes offset) fun s i => s.partImport n i part offset)

/-- CLEAR_RANGE (R55). -/
def execClearRange (n : AreaId) (mask : BitVec 24) (s : State) : Answer :=
  .next (s.requestCommand n .clearRange (leBytes 3 mask.toNat) fun s i => s.clearRange n i mask)

/-- TUNE (R85, R177). -/
def execTune (n : AreaId) (oscMask : BitVec 32) (anchorMask : BitVec 16) (mode background : Byte) (s : State) :
    Answer :=
  .next (s.requestCommand n .tune (leBytes 4 oscMask.toNat ++ wordBytes anchorMask ++ [mode, background])
    fun s i => s.tune n i oscMask anchorMask mode background)

/-- TUNE_ABORT (R92). -/
def execTuneAbort (n : AreaId) (s : State) : Answer :=
  .next (s.requestCommand n .tuneAbort [] fun s i => s.tuneAbort n i)

/-- RECALL (R142, R178). -/
def execRecall (n : AreaId) (slot part : Byte) (s : State) : Answer :=
  .next (s.requestCommand n .recall [slot, part] fun s i => s.recall n i slot part)

/-- STORE (R140, R178). -/
def execStore (n : AreaId) (part slot flags : Byte) (s : State) : Answer :=
  .next (s.requestCommand n .store [part, slot, flags] fun s i => s.store n i part slot flags)

/-- ERASE_SLOT (R141, R178). -/
def execEraseSlot (n : AreaId) (slot : Byte) (s : State) : Answer :=
  .next (s.requestCommand n .eraseSlot [slot] fun s i => s.eraseSlot n i slot)

/-- SLOT_INFO (R143, R178). -/
def execSlotInfo (n : AreaId) (slot : Byte) (s : State) : Answer :=
  .next (s.requestCommand n .slotInfo [slot] fun s i => s.slotInfo n i slot)

/-- STORE_CAL (R146, R178). -/
def execStoreCal (n : AreaId) (s : State) : Answer :=
  .next (s.requestCommand n .storeCal [] fun s i => s.storeCal n i)

/-- REVERT_CAL (R147, R178). -/
def execRevertCal (n : AreaId) (s : State) : Answer :=
  .next (s.requestCommand n .revertCal [] fun s i => s.revertCal n i)

/-- STORE_STATUS (R144). -/
def execStoreStatus (n : AreaId) (s : State) : Answer :=
  .next (s.requestCommand n .storeStatus [] fun s i => s.storeStatus n i)

end Sys2Proof.Machine
end

