-- ==== Sys2Proof/Machine/FlashEvents.lean ====
section
/-! DEFINITION. The meanings of the completions of flash steps (R130). -/

namespace Sys2Proof.Machine

/-- PROGRAM_COMPLETION (R130, R136). -/
def execProgramCompletion (readBack : Byte) (s : State) : Answer :=
  .next
    (match s.pst.step with
    | some (.program p off value role) =>
      State.looksAfter s (StoreRun.settle Config.queueDepth (s.programRun p off value role readBack))
    | some (.erase _ _) | some (.read _ _ _) | none => s)

/-- ERASE_COMPLETION (R130, R137). -/
def execEraseCompletion (residue : List (Fin 512 × Byte)) (s : State) : Answer :=
  .next
    (match s.pst.step with
    | some (.erase p _) => State.looksAfter s (StoreRun.settle Config.queueDepth (s.eraseRun p residue))
    | some (.program _ _ _ _) | some (.read _ _ _) | none => s)

/-- READ_COMPLETION (R108, R130, R147, R148), with the looks of background channels after a delivery (R87). -/
def execReadCompletion (s : State) : Answer :=
  .next
    (match s.pst.step with
    | some (.read p off len) => State.looksAfter s (StoreRun.settle Config.queueDepth (s.readRun p off len))
    | some (.program _ _ _ _) | some (.erase _ _) | none => s)

end Sys2Proof.Machine
end

