-- ==== Sys2Proof/Machine/EngineEvents.lean ====
section
/-! DEFINITION. The meanings of the Refresh Engine's events and of the allocator's and calculator's timers (R8 to R10,
R50, R61 to R71). -/

namespace Sys2Proof.Machine

/-- LOAD (R62): the load phase of the slot whose word is being shifted. -/
def execLoad (s : State) : Answer := .next s.loadSlot

/-- The channel holds the slot's code at the falling edge of SHSTB (R62). -/
def State.holdCode (s : State) (k : Slot) : State :=
  { s with rfe := { s.rfe with cv := tset s.rfe.cv k.chan k.code } }

/-- The Voice Allocator's side of a channel-written event (R7, R9): a pitch channel's written flag, and the opening. -/
def State.offerVoice (s : State) (k : Slot) : State :=
  match chanOsc k.chan, k.onset with
  | some o, some onset => (s.flagWritten o onset).evalOpen (oscVoice o)
  | _, _ => s

/-- CHANNEL_WRITTEN (R61, R65): the event is offered to the Voice Allocator and the Tuner, and the next slot begins.
Only a slot whose strobe is high has one to come (log 8). -/
def execChannelWritten (s : State) : Answer :=
  .next
    (match s.rfe.slot with
    | some k =>
      if k.strobing then
        (State.looksAfter s (((s.holdCode k).offerVoice k).settleStart k.chan k.stamp)).beginSlot
      else s
    | none => s)

/-- The gap timer of a voice runs out (R8, R9). -/
def State.gapExpire (s : State) (v : VoiceId) : State :=
  (s.putVoice v { s.voice v with gapRunning := false }).evalOpen v

/-- GAP_EXPIRY (R8, R9). -/
def execGapExpiry (v : VoiceId) (s : State) : Answer :=
  .next (if (s.voice v).gapRunning then State.looksAfter s (s.gapExpire v) else s)

/-- HOLD_EXPIRY (R10). -/
def execHoldExpiry (v : VoiceId) (s : State) : Answer :=
  .next (if (s.voice v).holdRunning then State.looksAfter s (s.holdExpire v) else s)

/-- GLIDE_EXPIRY (R50). -/
def execGlideExpiry (s : State) : Answer := .next (allVoices.foldl State.glideVoice s)

end Sys2Proof.Machine
end

