-- ==== Sys2Proof/Machine/TunerEvents.lean ====
section
/-! DEFINITION. The meanings of the measure channels' events (R77 to R84). -/

namespace Sys2Proof.Machine

/-- SETTLE_EXPIRY (R78). -/
def execSettleExpiry (c : CardId) (s : State) : Answer := .next (s.settleEnd c)

/-- MEASUREMENT_COMPLETION (R78, R80, R81): the last edge of a channel's count. -/
def execMeasurementCompletion (c : CardId) (clocks : Nat) (s : State) : Answer :=
  .next (if s.lastEdgeDue c then s.edge c clocks else s)

/-- NO_SIGNAL (R78, R82): the counter of a COUNTING channel reaches its limit. -/
def execNoSignal (c : CardId) (s : State) : Answer :=
  .next (if (s.chan c).state = .counting then s.noSignalEnd c else s)

/-- TIN_RISING_EDGE (R78). -/
def execTinRisingEdge (c : CardId) (clocks : Nat) (s : State) : Answer := .next (s.edge c clocks)

end Sys2Proof.Machine
end

