-- ==== Sys2Proof/Machine/PanelEvents.lean ====
section
/-! DEFINITION. The meanings of the panel's events (R113, R114, R125). -/

namespace Sys2Proof.Machine

/-- KNOB_SCAN_EXPIRY (R113). -/
def execKnobScanExpiry (s : State) : Answer := .next s.scanExpire

/-- KNOB_SAMPLE (R113 to R119). -/
def execKnobSample (raw : ParamVal) (s : State) : Answer := .next (s.sampleKnob raw)

/-- SWITCH_SAMPLE (R124 to R126), with the looks of background channels (R87).  The switch sampling timer does not run
in reset (R124, log 8). -/
def execSwitchSample (levels : SwitchLevels) (s : State) : Answer :=
  .next (if s.mpa.device = .held then s else State.looksAfter s (s.sampleSwitches (readsClosed levels)))

end Sys2Proof.Machine
end

