-- ==== Sys2Proof/Machine/Dispatch.lean ====
section
/-! DEFINITION. The dispatch of the commands to their meanings, one arm per command. -/

namespace Sys2Proof.Machine

def exec (i : Instr) (s : State) : Host.Outcome State Fault Refusal :=
  match i with
  | .deviceReset held => Sys2Proof.Machine.execDeviceReset s held
  | .run => Sys2Proof.Machine.execRun s
  | .restart => Sys2Proof.Machine.execRestart s
  | .summaryEcho high data => Sys2Proof.Machine.execSummaryEcho high data s
  | .enableWrite high data => Sys2Proof.Machine.execEnableWrite high data s
  | .hostMemoryWrite w => Sys2Proof.Machine.execHostMemoryWrite w s
  | .arrival n other => Sys2Proof.Machine.execArrival n other s
  | .look n => Sys2Proof.Machine.execLook n s
  | .keyOn n part key velocity source => Sys2Proof.Machine.execKeyOn n part key velocity source s
  | .keyOff n part key source => Sys2Proof.Machine.execKeyOff n part key source s
  | .bend n part value source => Sys2Proof.Machine.execBend n part value source s
  | .pedal n part velocity source => Sys2Proof.Machine.execPedal n part velocity source s
  | .allOff n part source => Sys2Proof.Machine.execAllOff n part source s
  | .setParam n id value => Sys2Proof.Machine.execSetParam n id value s
  | .setVoicing n part block => Sys2Proof.Machine.execSetVoicing n part block s
  | .setKeyboard n mode split map => Sys2Proof.Machine.execSetKeyboard n mode split map s
  | .selectEdit n part => Sys2Proof.Machine.execSelectEdit n part s
  | .mapKnob n knob target mode => Sys2Proof.Machine.execMapKnob n knob target mode s
  | .mapSwitch n switch func => Sys2Proof.Machine.execMapSwitch n switch func s
  | .partExport n part offset => Sys2Proof.Machine.execPartExport n part offset s
  | .partImport n part offset => Sys2Proof.Machine.execPartImport n part offset s
  | .clearRange n mask => Sys2Proof.Machine.execClearRange n mask s
  | .tune n oscMask anchorMask mode background => Sys2Proof.Machine.execTune n oscMask anchorMask mode background s
  | .tuneAbort n => Sys2Proof.Machine.execTuneAbort n s
  | .recall n slot part => Sys2Proof.Machine.execRecall n slot part s
  | .store n part slot flags => Sys2Proof.Machine.execStore n part slot flags s
  | .eraseSlot n slot => Sys2Proof.Machine.execEraseSlot n slot s
  | .slotInfo n slot => Sys2Proof.Machine.execSlotInfo n slot s
  | .storeCal n => Sys2Proof.Machine.execStoreCal n s
  | .revertCal n => Sys2Proof.Machine.execRevertCal n s
  | .storeStatus n => Sys2Proof.Machine.execStoreStatus n s
  | .programCompletion readBack => Sys2Proof.Machine.execProgramCompletion readBack s
  | .eraseCompletion residue => Sys2Proof.Machine.execEraseCompletion residue s
  | .readCompletion => Sys2Proof.Machine.execReadCompletion s
  | .load => Sys2Proof.Machine.execLoad s
  | .channelWritten => Sys2Proof.Machine.execChannelWritten s
  | .gapExpiry v => Sys2Proof.Machine.execGapExpiry v s
  | .holdExpiry v => Sys2Proof.Machine.execHoldExpiry v s
  | .glideExpiry => Sys2Proof.Machine.execGlideExpiry s
  | .settleExpiry c => Sys2Proof.Machine.execSettleExpiry c s
  | .measurementCompletion c clocks => Sys2Proof.Machine.execMeasurementCompletion c clocks s
  | .noSignal c => Sys2Proof.Machine.execNoSignal c s
  | .knobScanExpiry => Sys2Proof.Machine.execKnobScanExpiry s
  | .knobSample raw => Sys2Proof.Machine.execKnobSample raw s
  | .switchSample levels => Sys2Proof.Machine.execSwitchSample levels s
  | .roomEvent n other => Sys2Proof.Machine.execRoomEvent n other s
  | .tinRisingEdge c clocks => Sys2Proof.Machine.execTinRisingEdge c clocks s

end Sys2Proof.Machine
end

