-- ==== Sys2Proof/WellFormed.lean ====
section
/-! DEFINITION. The checks a command must pass to be one the part's surroundings can give.  Most operands carry their
range in their type; the three that do not are the residue of an erase and the two counts of reference clocks. -/

namespace Sys2Proof

/-- The residue of an erase lists each offset once, rising, and only bytes that do not read 0xFF (R130). -/
def residueWf : List (Fin 512 × Byte) → Bool
  | [] => true
  | (o, b) :: rest =>
    b != 0xFF && (match rest with | [] => true | (o', _) :: _ => decide (o < o')) && residueWf rest

/-- A count of reference clocks fits the measure channel's 20-bit counter (R78). -/
def clocksWf (clocks : Nat) : Bool := decide (clocks < 2 ^ 20)

/-- A well-formed command. -/
def Instr.wf : Instr → Bool
  | .eraseCompletion residue => residueWf residue
  | .measurementCompletion _ clocks => clocksWf clocks
  | .tinRisingEdge _ clocks => clocksWf clocks
  | .deviceReset _ | .run | .restart | .summaryEcho _ _ | .enableWrite _ _ | .hostMemoryWrite _ | .arrival _ _
  | .look _ | .keyOn _ _ _ _ _ | .keyOff _ _ _ _ | .bend _ _ _ _ | .pedal _ _ _ _ | .allOff _ _ _
  | .setParam _ _ _ | .setVoicing _ _ _ | .setKeyboard _ _ _ _ | .selectEdit _ _ | .mapKnob _ _ _ _
  | .mapSwitch _ _ _ | .partExport _ _ _ | .partImport _ _ _ | .clearRange _ _ | .tune _ _ _ _ _
  | .tuneAbort _ | .recall _ _ _ | .store _ _ _ _ | .eraseSlot _ _ | .slotInfo _ _ | .storeCal _
  | .revertCal _ | .storeStatus _ | .programCompletion _ | .readCompletion | .load | .channelWritten
  | .gapExpiry _ | .holdExpiry _ | .glideExpiry | .settleExpiry _ | .noSignal _ | .knobScanExpiry
  | .knobSample _ | .switchSample _ | .roomEvent _ _ => true

end Sys2Proof
end

