-- ==== Sys2Proof/Safety.lean ====
section
/-! DEFINITION. The terms in which claims about the part are stated: the invariants every step keeps, and what an
event leaves alone. -/

namespace Sys2Proof.Machine

/-! ### Invariants -/

/-- Common memory and the flash store are in canonical form. -/
def State.memoryOk (s : State) : Prop :=
  Memory.wf Config.memFill Config.memSize s.mem = true ∧ Memory.wf Config.erased Config.flashSize s.flash = true

/-- The jump queue holds at most 32 channels, each once (R66). -/
def State.jumpOk (s : State) : Prop := s.rfe.jump.length ≤ Config.jumpDepth ∧ s.rfe.jump.Nodup

/-- A held-key list holds at most 16 entries and each key once (R34). -/
def heldOk (l : List HeldKey) : Prop := l.length ≤ Config.heldDepth ∧ (l.map HeldKey.key).Nodup

/-- Both held-key lists are in order (R34). -/
def State.keysOk (s : State) : Prop := heldOk s.nrt.held.a ∧ heldOk s.nrt.held.b

/-- The store queue holds at most four entries (R139), and while a tune job exists none of them is a STORE_CAL or a
REVERT_CAL (R85). -/
def State.flightOk (s : State) : Prop :=
  s.rqu.queue.length ≤ Config.queueDepth ∧ (s.tun.job.isSome = true → ∀ e ∈ s.rqu.queue, e.req.calClass = false)

/-- The requests in flight: the store queue's entries and, while a job exists, its TUNE (R179). -/
def State.inFlight (s : State) : Nat := s.rqu.queue.length + s.tun.job.isSome.toNat

/-- Every voice is in exactly the list its state names, once (R2). -/
def State.listsOk (s : State) : Prop :=
  s.val.free.Nodup ∧ s.val.busy.Nodup ∧ s.val.tune.Nodup ∧
    ∀ v : VoiceId,
      (v ∈ s.val.free ↔ (s.voice v).state = .free) ∧ (v ∈ s.val.busy ↔ (s.voice v).state.busy = true) ∧
        (v ∈ s.val.tune ↔ (s.voice v).state = .tuning)

/-- A voice's timers and deferred release agree with its state: the hold timer runs only while the voice is ON, the gap
timer only while it is PENDING, and a deferred release waits only in PENDING or under a running hold (R8 to R11). -/
def Voice.timersOk (r : Voice) : Prop :=
  (r.holdRunning = true → r.state = .on) ∧ (r.gapRunning = true → r.state = .pending) ∧
    (r.offDeferred = true → r.state = .pending ∨ (r.state = .on ∧ r.holdRunning = true))

/-- So it is with every voice. -/
def State.timersOk (s : State) : Prop := ∀ v : VoiceId, (s.voice v).timersOk

/-- Every anchor table strictly rises (R83, R93). -/
def State.tablesOk (s : State) : Prop :=
  ∀ (o : OscId) (j k : AnchorId), j < k → tget (tget s.tun.anchors o) j < tget (tget s.tun.anchors o) k

/-- A voicing block in conditioned form (R100). -/
def Voicing.ok (y : Voicing) : Prop :=
  2 ≤ y.count ∧ y.count ≤ 12 ∧ y.bendRange ≤ 12 ∧ -24 ≤ y.transpose ∧ y.transpose ≤ 24

/-- The setup values in force lie in their ranges (R158). -/
def Setup.ok (p : Setup) : Prop :=
  p.gateGap ≤ 15 ∧ p.gateHold ≤ 15 ∧ p.divider ≤ 15 ∧ 1 ≤ p.dwell ∧ p.dwell ≤ 63 ∧ 120000 ≤ p.targetT ∧
    p.targetT ≤ 500000 ∧ 1 ≤ p.tolerance ∧ p.tolerance ≤ 4095 ∧ 1 ≤ p.settle ∧ p.settle ≤ 63 ∧ 1 ≤ p.scanInterval ∧
    p.scanInterval ≤ 16 ∧ p.endZone ≤ 32 ∧ 1 ≤ p.deadband ∧ p.deadband ≤ 64 ∧ 1 ≤ p.debounce ∧ p.debounce ≤ 15 ∧
    p.eraseCode ≤ 15

/-- The values that are conditioned where they enter the part lie in their ranges (R31, R100, R158). -/
def State.rangesOk (s : State) : Prop :=
  s.mpa.setup.ok ∧ (∀ p : Part, (s.voicing p).ok) ∧
    ∀ p : Part, -8192 ≤ s.nrt.bend.get p ∧ s.nrt.bend.get p ≤ 8191

/-! ### What an event leaves alone -/

/-- No byte of common memory reads differently. -/
def sameMemory (s t : State) : Prop := ∀ a : Nat, t.peek a = s.peek a

/-- No byte of common memory reads differently but those that `p` names. -/
def sameMemoryBut (p : Nat → Prop) (s t : State) : Prop := ∀ a : Nat, ¬ p a → t.peek a = s.peek a

/-- No byte of flash reads differently. -/
def sameFlash (s t : State) : Prop := ∀ (p : PageId) (off : Nat), off < 512 → t.flashByte p off = s.flashByte p off

/-- An address of the cell that begins at `at'` and has `size` bytes. -/
def inCell (at' size a : Nat) : Prop := at' ≤ a ∧ a < at' + size

/-- An address of the image's bytes from `off`, `len` of them, while an image is active. -/
def State.inImage (s : State) (off len a : Nat) : Prop :=
  match s.imageBase with
  | some base => base + off ≤ a ∧ a < base + off + len
  | none => False

/-- A part load of part `p` has detached every CATCH knob whose target resolves to one of the part's sixteen parameters,
each with its side against the loaded value, and changed no other knob (R104, R120; the equal case: log 35). -/
def State.partDetached (s t : State) (p : Part) : Prop :=
  let on (w : KnobId) (i : ParamId) : Prop := (s.knob w).mode = .catchMode ∧ s.resolve (s.knob w).target = some i ∧
    i.val / 16 = (match p with | .A => 0 | .B => 1)
  ∀ w : KnobId,
    (∀ i, on w i →
      (t.knob w).last = (s.knob w).last ∧ (t.knob w).mode = .catchMode ∧ (t.knob w).target = (s.knob w).target ∧
        (t.knob w).detached = decide ((s.knob w).last ≠ tget t.prb.params i) ∧
        ((s.knob w).last < tget t.prb.params i → (t.knob w).side = .below) ∧
        (tget t.prb.params i < (s.knob w).last → (t.knob w).side = .above)) ∧
      ((∀ i, ¬ on w i) → t.knob w = s.knob w)

/-- The blocks that a request on parameters leaves alone. -/
def sameVoicesAndStore (s t : State) : Prop :=
  t.val = s.val ∧ t.rfe = s.rfe ∧ t.tun = s.tun ∧ t.pst = s.pst ∧ t.rqu = s.rqu ∧ t.rpu = s.rpu ∧ t.nrt = s.nrt

/-! ### Cells and results -/

/-- Area `n` is an active REQUEST area whose examine cell begins at `at'`, inside common memory. -/
def State.requestAt (s : State) (n : AreaId) (at' : Nat) : Prop :=
  ∃ a, s.areaOf n .request = some a ∧ a.cellAddr a.pos = at' ∧ at' + 32 ≤ Config.memSize

/-- Area `n` is an active NOTE area whose examine cell begins at `at'`, inside common memory. -/
def State.noteAt (s : State) (n : AreaId) (at' : Nat) : Prop :=
  ∃ a, s.areaOf n .note = some a ∧ a.cellAddr a.pos = at' ∧ at' + 8 ≤ Config.memSize

/-- The examine position of area `n` has advanced by one cell (R164). -/
def advanced (s t : State) (n : AreaId) : Prop :=
  ∃ a b, s.active n = some a ∧ t.active n = some b ∧ b.pos = a.nextPos ∧ b.lookDue = true

/-- The cell at `at'` of area `n` is DONE with a result code, and the area's attention bit is set (R180). -/
def doneWith (t : State) (n : AreaId) (at' : Nat) (code : ResultCode) : Prop :=
  t.peek at' = markDone ∧ t.peek (at' + 3) = code.code ∧ t.mpa.summary.getLsbD n.val = true

/-- The bytes of common memory from `at'` read as the list. -/
def readsAs (t : State) (at' : Nat) (bytes : List Byte) : Prop := t.peeks at' bytes.length = bytes

/-- A request was refused, or answered without effect: the cell at `at'` is DONE with the code, the position has
advanced, and no block but the port has changed. -/
def onlyAnswered (s t : State) (n : AreaId) (at' : Nat) (code : ResultCode) : Prop :=
  doneWith t n at' code ∧ advanced s t n ∧ sameVoicesAndStore s t ∧ t.prb = s.prb ∧ t.psc = s.psc ∧
    t.flash = s.flash ∧ sameMemoryBut (inCell at' 32) s t

/-! ### The directory (R159, R160) -/

/-- The bounds and size of an entry that is not NONE (R160, checks 1 to 3): an area of whole units 32 to 2047 with two
cells, or 352 bytes for an image. -/
def DirEntry.fitsAlone (e : DirEntry) : Prop :=
  e.kind ≤ 4 ∧ 32 ≤ e.start ∧ e.start < e.stop ∧ e.stop ≤ 2048 ∧
    (e.kind = 1 ∨ e.kind = 3 → 2 * 8 ≤ 4 * (e.stop - e.start)) ∧ (e.kind = 2 → 2 * 32 ≤ 4 * (e.stop - e.start)) ∧
    (e.kind = 4 → 352 ≤ 4 * (e.stop - e.start))

/-- How many entries are of a kind. -/
def State.kindCount (s : State) (kind : Nat) : Nat := (allAreas.filter fun n => (s.readEntry n).kind = kind).length

/-- A directory that RUN entry accepts (R160). -/
def State.directoryOk (s : State) : Prop :=
  (∀ n : AreaId, (s.readEntry n).kind ≠ 0 → (s.readEntry n).fitsAlone) ∧
    (∀ m n : AreaId, m < n → (s.readEntry m).kind ≠ 0 → (s.readEntry n).kind ≠ 0 →
      (s.readEntry m).stop ≤ (s.readEntry n).start ∨ (s.readEntry n).stop ≤ (s.readEntry m).start) ∧
    s.kindCount 1 ≤ 2 ∧ s.kindCount 2 ≤ 2 ∧ s.kindCount 3 ≤ 4 ∧ s.kindCount 4 ≤ 1 ∧
    ∀ m n : AreaId, m < n → (s.readEntry m).kind = 3 → (s.readEntry n).kind = 3 →
      (s.readEntry m).joins &&& (s.readEntry n).joins = 0

/-! ### The checks of RUN entry in their order (R160) -/

/-- The checks a directory entry goes through. -/
inductive DirCheck where
  | kind | bounds | tooSmall | imageSize | overlap | kindCount | joins
  deriving DecidableEq, Repr

/-- The place of a check in the order. -/
def DirCheck.rank : DirCheck → Nat
  | .kind => 1
  | .bounds => 2
  | .tooSmall => 3
  | .imageSize => 4
  | .overlap => 5
  | .kindCount => 6
  | .joins => 7

/-- The fault code a check fails with (R155, R160). -/
def DirCheck.code : DirCheck → Nat
  | .kind => 4
  | .bounds => 2
  | .tooSmall => 3
  | .imageSize => 6
  | .overlap => 1
  | .kindCount => 4
  | .joins => 5

/-- How many areas of the kind of an entry a directory may hold. -/
def kindLimit (kind : Nat) : Nat := if kind = 3 then 4 else if kind = 4 then 1 else 2

/-- Entry `n` fails a check. -/
def State.failsCheck (s : State) (n : AreaId) : DirCheck → Prop
  | .kind => 4 < (s.readEntry n).kind
  | .bounds => (s.readEntry n).start < 32 ∨ 2048 < (s.readEntry n).stop ∨ (s.readEntry n).stop ≤ (s.readEntry n).start
  | .tooSmall => (s.readEntry n).kind ≠ 4 ∧
      4 * ((s.readEntry n).stop - (s.readEntry n).start) / (if (s.readEntry n).kind = 2 then 32 else 8) < 2
  | .imageSize => (s.readEntry n).kind = 4 ∧ (s.readEntry n).stop - (s.readEntry n).start < 88
  | .overlap => ∃ m : AreaId, m < n ∧ (s.readEntry m).kind ≠ 0 ∧ (s.readEntry m).start < (s.readEntry n).stop ∧
      (s.readEntry n).start < (s.readEntry m).stop
  | .kindCount => kindLimit (s.readEntry n).kind <
      (allAreas.filter fun m => m ≤ n && (s.readEntry m).kind = (s.readEntry n).kind).length
  | .joins => (s.readEntry n).kind = 3 ∧
      ∃ m : AreaId, m < n ∧ (s.readEntry m).kind = 3 ∧ (s.readEntry m).joins &&& (s.readEntry n).joins ≠ 0

/-! ### Routing (R32) -/

/-- The part that a KEY_ON or KEY_OFF of a key with a part code reaches. -/
def State.keyReaches (s : State) (code : Byte) (k : Key) (p : Part) : Prop :=
  code = p.code ∨ (code = 0 ∧
    match s.nrt.mode with
    | .single => p = .A
    | .split => p = if k < s.nrt.split then .B else .A
    | .layer => True)

/-- The parts that a BEND, PEDAL or ALL_OFF with a part code reaches. -/
def State.partReaches (s : State) (code : Byte) (p : Part) : Prop :=
  code = p.code ∨ (code = 0 ∧ (p = .A ∨ s.nrt.mode ≠ .single))

/-! ### Keys and voices -/

/-- The priority key's entry in a held-key list (R19, R100). -/
def isPriority (x : Priority) (l : List HeldKey) (e : HeldKey) : Prop :=
  match x with
  | .last => l.getLast? = some e
  | .low => e ∈ l ∧ ∀ y ∈ l, e.key ≤ y.key
  | .high => e ∈ l ∧ ∀ y ∈ l, y.key ≤ e.key

/-- The record of a voice after a release under its part's pedal (R11, R13). -/
def Voice.afterRelease (r : Voice) (pedal : Bool) : Voice :=
  match r.state with
  | .pending => { r with offDeferred := true }
  | .on =>
    if r.holdRunning then { r with offDeferred := true }
    else if pedal then { r with state := .sustained }
    else { r with
      state := .free, gapRunning := false, holdRunning := false, offDeferred := false, glideActive := false,
      aWritten := false, bWritten := false }
  | .sustained | .free | .tuning => r

/-- The record of a voice that becomes FREE (R13). -/
def Voice.freed (r : Voice) : Voice :=
  { r with
    state := .free, gapRunning := false, holdRunning := false, offDeferred := false, glideActive := false,
    aWritten := false, bWritten := false }

/-- The c that an assignment or SINGLE key change leaves a voice that does not glide: its target (R6, R48). -/
def State.targetFor (s : State) (p : Part) (k : Key) : Int :=
  clampInt 0 32767 (((k.val : Int) + (s.voicing p).transpose) * 256)

/-- Voice `v` comes out of a voicing change of part `p` that keeps its key: under another transpose a busy voice of the
part that does not glide takes its new target, and nothing else of the record changes (R49). -/
def State.retuned (s t : State) (p : Part) (v : VoiceId) : Prop :=
  let moves : Prop := (t.voicing p).transpose ≠ (s.voicing p).transpose ∧ (s.voice v).part = p ∧
    (s.voice v).state.busy = true ∧ (s.voice v).glideActive = false
  t.voice v = { s.voice v with c := (t.voice v).c } ∧ (¬ moves → (t.voice v).c = (s.voice v).c) ∧
    (moves → ∀ k, (s.voice v).key = some k → ((t.voice v).c.val : Int) = t.targetFor p k)

/-- A key change of part `p` to an entry: every busy voice of the part takes its key and velocity under the voicing in
force after the event, by the retrigger setting; no other voice changes (R6, R21, R49). -/
def State.keyChanged (s t : State) (p : Part) (e : HeldKey) : Prop :=
  (∀ w : VoiceId, w ∉ s.busyOf p → t.voice w = s.voice w) ∧
    ∀ w ∈ s.busyOf p,
      (t.voice w).key = some e.key ∧ (t.voice w).velocity = e.velocity ∧ (t.voice w).unison = (s.voice w).unison ∧
        (t.voice w).offDeferred = false ∧ (t.voice w).glideActive = decide ((t.voicing p).glide ≠ .off) ∧
        ((t.voice w).c.val : Int) =
          (if (t.voicing p).glide = .off then t.targetFor p e.key else ((s.voice w).c.val : Int)) ∧
        ((t.voicing p).retrigger = .single →
          (t.voice w).state = (if (s.voice w).state = .sustained then .on else (s.voice w).state) ∧
            (t.voice w).onset = (s.voice w).onset) ∧
        ((t.voicing p).retrigger = .multi → (t.voice w).state = .pending ∧ (t.voice w).onset ≠ s.val.onset)

/-- Part `p` starts on an entry: its lowest FREE voices, one for MONO and up to the unison count for UNISON, take the key
in ascending order; no other voice changes (R20, R22). -/
def State.started (s t : State) (p : Part) (e : HeldKey) : Prop :=
  let vs := (allVoices.filter fun v => (s.voice v).part = p && (s.voice v).state = .free).take
    (if (t.voicing p).mode = .mono then 1 else (t.voicing p).count)
  vs ≠ [] →
    (∀ (i : Nat) (v : VoiceId), vs[i]? = some v →
      (t.voice v).state = .pending ∧ (t.voice v).key = some e.key ∧ (t.voice v).velocity = e.velocity ∧
        (t.voice v).unison.val = i ∧ (t.voice v).glideActive = decide ((t.voicing p).glide = .always)) ∧
      (∀ v : VoiceId, v ∉ vs → t.voice v = s.voice v) ∧ t.val.busy = s.val.busy ++ vs

/-- The newest voiceless key of a part, no busy voice but `v` counting: the last of a held-key list that no other busy
voice of the part plays (R18). -/
def State.newestWithout (s : State) (p : Part) (v : VoiceId) (l : List HeldKey) (e : HeldKey) : Prop :=
  ∃ l₁ l₂, l = l₁ ++ e :: l₂ ∧ (∀ w ∈ s.busyOf p, w ≠ v → (s.voice w).key ≠ some e.key) ∧
    ∀ x ∈ l₂, ∃ w ∈ s.busyOf p, w ≠ v ∧ (s.voice w).key = some x.key

/-- Voice `v` is the part's lowest-numbered TUNING voice under a background job (R27, R90). -/
def State.yields (s : State) (p : Part) (v : VoiceId) : Prop :=
  s.background = true ∧ (s.voice v).part = p ∧ (s.voice v).state = .tuning ∧
    ∀ w : VoiceId, w < v → (s.voice w).part = p → (s.voice w).state ≠ .tuning

/-! ### Reports (R166, R187, R188, R202) -/

/-- The seven bytes after the mark of the cell of a pending report, as its source stands (R123, R187, R202). The bits 8 to 14
of a KNOB report's aux and 9 to 15 of a TUNE_OSC report's masks, 0 here, are the model's choice (log 38). -/
def State.reportContent (s : State) : Chosen → List Byte
  | .fault f => 0x06 :: (leBytes 2 f.index ++ leBytes 2 f.value ++ leBytes 2 f.aux)
  | .osc o => 0x03 :: (leBytes 2 o.val ++ leBytes 2 (tget s.tun.outcomes o).accepted.toNat ++
      leBytes 2 (tget s.tun.outcomes o).failed.toNat)
  | .knob i =>
    0x01 :: (leBytes 2 i.val ++ leBytes 2 (s.knob i).last.val ++
      [match (s.knob i).target with
        | .absolute id => BitVec.ofNat 8 id.val
        | .editRelative x => BitVec.ofNat 8 (64 + x.val)
        | .none => 0xFF,
        if (s.knob i).target ≠ .none ∧ ((s.knob i).mode = .direct ∨ (s.knob i).mode = .relative ∨
          ((s.knob i).mode = .catchMode ∧ (s.knob i).detached = false)) then 0x80 else 0x00])
  | .switch j =>
    0x02 :: (leBytes 2 j.val ++ [if (tget s.psc.switches j).closed then 1 else 0, 0] ++
      [match (tget s.psc.switches j).func with
        | .report => 0
        | .sustainA => 1
        | .sustainB => 2
        | .sustainBoth => 3, 0])

/-- The pending state after a report has been written (R189). -/
def Rpu.without (r : Rpu) : Chosen → Rpu
  | .fault _ => { r with fault := none }
  | .osc o => { r with oscs := tset r.oscs o false }
  | .knob i => { r with knobs := tset r.knobs i false }
  | .switch j => { r with switches := tset r.switches j false }

/-- Area `n` is an active REPORT area without room, and its fill mark is not a byte of the image. -/
def State.reportFull (s : State) (n : AreaId) : Prop :=
  ∃ a, s.areaOf n .report = some a ∧ s.peek (a.cellAddr a.pos) ≠ markEmpty ∧ ¬ s.inImage 0 352 (a.cellAddr a.pos)

/-- Area `n` is an active REPORT area with room at the cell at `at'`, inside common memory and clear of the image, and no
report is pending for it. -/
def State.reportOpen (s : State) (n : AreaId) (at' : Nat) : Prop :=
  (∃ a, s.areaOf n .report = some a ∧ a.cellAddr a.pos = at') ∧ s.peek at' = markEmpty ∧ at' + 8 ≤ Config.memSize ∧
    (∀ b, inCell at' 8 b → ¬ s.inImage 0 352 b) ∧ s.choose n = none

/-- A note cell of area `n`, recorded as `a`, was faulty: the position has advanced and no note state has changed; a
FAULT area with room has the NOTE_FAULT with the cell's number, its directory entry, the reason and the source byte, and
for one without room the fault waits, unless one waits already (R30, R187, R188). -/
def noteFaulted (s t : State) (n : AreaId) (a : Area) (source : Byte) (reason : Nat) : Prop :=
  let aux : Nat := source.toNat + 256 * reason
  t.val = s.val ∧ t.nrt = s.nrt ∧ t.rfe = s.rfe ∧ t.tun = s.tun ∧ t.prb = s.prb ∧ t.psc = s.psc ∧ t.pst = s.pst ∧
    t.rqu = s.rqu ∧ t.flash = s.flash ∧ advanced s t n ∧ (s.rpu.faultArea = none → t.rpu = s.rpu) ∧
    (∀ m b, s.rpu.faultArea = some m → s.areaOf m .report = some b → s.peek (b.cellAddr b.pos) ≠ markEmpty →
      b.cellAddr b.pos < a.cellAddr a.pos ∨ a.cellAddr a.pos + 8 ≤ b.cellAddr b.pos →
      t.rpu = { s.rpu with fault := some (s.rpu.fault.getD ⟨a.pos, n.val, aux⟩) }) ∧
    ∀ (at' : Nat) (m : AreaId) (x : Nat), s.memoryOk → s.noteAt n at' → s.rpu.faultArea = some m → s.reportOpen m x →
      (∀ b, inCell x 8 b → ¬ inCell at' 8 b) →
      readsAs t x (markFull :: 0x06 :: (leBytes 2 a.pos ++ leBytes 2 n.val ++ leBytes 2 aux)) ∧
        t.mpa.summary.getLsbD m.val = true ∧ t.rpu = s.rpu

/-- With a gate hold of 0 the event `c` opens voice `v` and applies its hold expiry: the allocator, but for the range flags
that a slot begun in the event may write, and the tuner's job come out as after the hold expiry of the voice ON with both
flags set and its gap stopped (R9, R10). -/
def State.opensTo (s : State) (v : VoiceId) (c : Instr) : Prop :=
  let on : Voice := { s.voice v with
    state := .on, holdRunning := true, gapRunning := false, aWritten := true, bWritten := true }
  ∃ t u, exec c s = .next t ∧
    exec (.holdExpiry v) { s with val := { s.val with voices := tset s.val.voices v on } } = .next u ∧
    t.val = { u.val with voices := t.val.voices } ∧ t.nrt = u.nrt ∧ t.tun.job = u.tun.job ∧
    ∀ w : VoiceId, t.voice w = { u.voice w with
      dynA := (t.voice w).dynA, stickyA := (t.voice w).stickyA, dynB := (t.voice w).dynB,
      stickyB := (t.voice w).stickyB }

/-! ### Tuning -/

/-- The event `e` ends the last remaining anchor of oscillator `o` on channel `c`: its count ends with no signal, or, with
no anchor left, a verify measurement completes, or one of the search whose count is T (R80 to R82, R88). -/
def State.endsOsc (s : State) (c : CardId) (o : OscId) (e : Instr) : Prop :=
  (s.chan c).state = .counting ∧ (s.chan c).osc = some o ∧ oscCard o = c ∧
    (e = .noSignal c ∨ ∃ clocks p, e = .measurementCompletion c clocks ∧ (s.chan c).periods = some p ∧
      2 ^ (s.chan c).anchor.val ≤ p + 1 ∧ 0 < (s.chan c).counter + clocks ∧
      (s.chan c).counter + clocks < 1048575 ∧
      ((s.chan c).step = 0 ∨ (s.chan c).counter + clocks = s.mpa.setup.targetT) ∧ (s.chan c).rest = [])

/-- The other oscillator of the same voice. -/
def siblingOf (o : OscId) : OscId := if o.val % 2 = 0 then ⟨(o.val + 1) % 24, by omega⟩ else ⟨o.val - 1, by omega⟩

/-! ### The store -/

/-- The head entry of the store queue, and the place of its request cell, inside common memory. -/
def State.servedAt (s : State) (e : StoreEntry) (at' : Nat) : Prop :=
  s.rqu.queue.head? = some e ∧ s.cellAt e.area e.cell = some at' ∧ at' + 32 ≤ Config.memSize

/-- Page `v` is the FULL patch page before every other one of `l` in log order (R133, R135). -/
def State.oldestFull (s : State) (l : List PageId) (v : PageId) : Prop :=
  v ∈ l ∧ ∀ w ∈ l, w ≠ v → s.olderPage v w = true ∧ s.olderPage w v = false

/-- The index names no record in a page. -/
def State.noCurrent (s : State) (p : PageId) : Prop := ∀ (k : SlotId) (l : Loc), tget s.pst.index k = some l → l.page ≠ p

/-- Page `p` is the ERASED patch page with the lowest erase count, the lowest page number on a tie (R134). -/
def State.leastErasedPage (s : State) (p : PageId) : Prop :=
  4 ≤ p.val ∧ (s.page p).state = .erased ∧ ∀ q : PageId, 4 ≤ q.val → (s.page q).state = .erased →
    (s.page p).eraseCount < (s.page q).eraseCount ∨ ((s.page p).eraseCount = (s.page q).eraseCount ∧ p ≤ q)

/-- Page `p` is the oldest of the pages that satisfy `f`, in log order (R133). -/
def State.oldestOf (s : State) (f : PageId → Prop) (p : PageId) : Prop :=
  f p ∧ ∀ w, f w → w ≠ p → s.olderPage p w = true ∧ s.olderPage w p = false

/-- Page `p` is a patch page in a state. -/
def State.patchIs (s : State) (st : PageState) (p : PageId) : Prop := 4 ≤ p.val ∧ (s.page p).state = st

/-- Fewer than 32 patch pages are usable (R138). -/
def State.tooFew (s : State) : Prop :=
  ((List.finRange 64).filter fun q => decide (4 ≤ q.val) && (s.page q).state != .bad).length < 32

/-- The head's FULL byte is being programmed, or, without a head, the least erased page is being opened (R134, R135). -/
def State.headClosed (t : State) : Prop :=
  (∀ h, t.headPage = some h → t.pst.step = some (.program h 1 0x00 .full)) ∧
    (t.headPage = none → ∀ q, t.leastErasedPage q → t.pst.step = some (.program q 2 0x50 (.header false)))

/-- A reclaim round has begun: the oldest FULL page is erased, or, where it holds a current record, the head is closed;
with no ERASED page the oldest FULL page without a current record is erased (R135). -/
def State.roundBegun (t : State) : Prop :=
  let erasing (v : PageId) : Prop := t.pst.step = some (.erase v (2 + t.mpa.setup.eraseCode))
  ((∃ q, t.patchIs .erased q) → ∀ v, t.oldestOf (t.patchIs .full) v →
    (t.noCurrent v → erasing v) ∧ (¬ t.noCurrent v → t.headClosed)) ∧
    ((∀ q, ¬ t.patchIs .erased q) → ∀ v, t.oldestOf (fun w => t.patchIs .full w ∧ t.noCurrent w) v → erasing v)

/-- The record's placement has been tried: its OPEN byte is programmed at the head's write position where it fits, and
otherwise the head is switched, with two ERASED pages or more, or a reclaim round begins (R134). -/
def State.placed (t : State) (r : PatchRec) : Prop :=
  let erased := (List.finRange 64).filter fun q => decide (4 ≤ q.val) && (t.page q).state = .erased
  (∀ h, t.headPage = some h → (t.page h).writePos + 4 * r.length ≤ 512 →
    t.pst.step = some (.program h (t.page h).writePos 0x00 (.recOpen r.length))) ∧
    ((∀ h, t.headPage = some h → 512 < (t.page h).writePos + 4 * r.length) →
      (2 ≤ erased.length → t.headClosed) ∧ (erased.length < 2 → t.roundBegun))

/-- The record at `l` is the first in page `v` that the index names (R135). -/
def State.firstIn (t : State) (v : PageId) (l : Loc) : Prop :=
  (∃ k : SlotId, tget t.pst.index k = some l) ∧ l.page = v ∧
    ∀ (k : SlotId) (l' : Loc), tget t.pst.index k = some l' → l'.page = v → l' = l ∨ l.off < l'.off

/-- The length in bytes of the record at a place, as its length byte reads. -/
def State.recordBytes (t : State) (l : Loc) : Nat := 4 * (t.flashByte l.page (l.off + 5)).toNat

/-- The reclaim of page `v` goes on: its first current record is read where it fits in the head, and with none left the
page is erased (R135). -/
def State.copiesOn (t : State) (v : PageId) : Prop :=
  (t.noCurrent v → t.pst.step = some (.erase v (2 + t.mpa.setup.eraseCode))) ∧
    ∀ l h, t.firstIn v l → t.headPage = some h → (t.page h).writePos + t.recordBytes l ≤ 512 →
      t.pst.step = some (.read v l.off (t.recordBytes l))

/-- The first current record of page `v` does not fit in the head (R135). -/
def State.copyLost (t : State) (v : PageId) : Prop :=
  ∃ l h, t.firstIn v l ∧ t.headPage = some h ∧ 512 < (t.page h).writePos + t.recordBytes l

/-- Page `w` is no candidate of a STORE_CAL (R146). -/
def State.calBarred (t : State) (w : PageId) : Prop := (t.page w).state = .bad ∨ t.pst.currentCal = some w

/-- The first candidate of a list of calibration pages is being erased (R146). -/
def State.calTried (t : State) (ring : List PageId) : Prop :=
  ∀ skipped q more, ring = skipped ++ q :: more → (∀ w ∈ skipped, t.calBarred w) → ¬ t.calBarred q →
    t.pst.step = some (.erase q (2 + t.mpa.setup.eraseCode))

/-- The one entry of the queue, `e` of the state `s`, whose cell is at `x`, has ended with a result, and no flash step is
in progress (R139, R180). -/
def State.endedWith (s t : State) (code : ResultCode) : Prop :=
  ∀ e x, s.memoryOk → s.rqu.queue = [e] → s.servedAt e x → s.mpa.device = .run →
    doneWith t e.area x code ∧ t.rqu.queue = [] ∧ t.pst.step = none

/-- An operation has taken its first flash step, or has ended without one, over the page table and index of `t`
(R134, R138 to R147). -/
def State.opBegun (s t : State) : StoreOp → Prop
  | .write r => (t.pst.readOnly = false → t.placed r) ∧ (t.pst.readOnly = true → s.endedWith t .storeFault)
  | .recall _ l => t.pst.step = some (.read l.page l.off (t.recordBytes l))
  | .info l => t.pst.step = some (.read l.page l.off (t.recordBytes l))
  | .storeCal _ => t.calTried t.ringOrder ∧ ((∀ w ∈ t.ringOrder, t.calBarred w) → s.endedWith t .storeFault)
  | .revertCal _ =>
    (∀ c q more, t.pst.currentCal = some c → t.olderCal c = q :: more → t.pst.step = some (.read q 8 486)) ∧
      ((∀ c, t.pst.currentCal = some c → t.olderCal c = []) → s.endedWith t .nothing)
  | .scan => True

/-- The step in progress is one that a RESTART left: no operation owns it, or one waits for it (R139, R151). -/
def State.leftStep (s : State) : Prop :=
  s.pst.service = none ∨ ∃ svc, s.pst.service = some svc ∧ svc.phase = .waiting

/-- A step that a RESTART left has completed: without an operation no step follows and nothing outside the store has
changed, and the operation that waited for it has begun (R139, R151). -/
def State.leftoverDone (s t : State) : Prop :=
  (s.pst.service = none → t.pst.step = none ∧ t.pst.service = none ∧ t.rqu = s.rqu ∧ t.mpa = s.mpa ∧ t.mem = s.mem ∧
    t.val = s.val ∧ t.prb = s.prb ∧ t.tun = s.tun ∧ t.rpu = s.rpu) ∧
    ∀ svc, s.pst.service = some svc → svc.phase = .waiting → s.opBegun t svc.op

/-! ### The start-up scan (R148 to R150) -/

/-- Page `p` is the newest of the pages that satisfy `f`, in log order (R133). -/
def State.newestOf (s : State) (f : PageId → Prop) (p : PageId) : Prop :=
  f p ∧ ∀ w, f w → w ≠ p → s.olderPage w p = true ∧ s.olderPage p w = false

/-- Page `p` is a USED page of the calibration ring. -/
def State.calUsed (s : State) (p : PageId) : Prop := p.val < 4 ∧ (s.page p).state = .used

/-- The scan's calibration step has begun: the newest USED calibration page is read, or, with none, the part has entered
SETUP with SUMMARY bit 8 set (R150, R156). -/
def State.calBegun (t : State) : Prop :=
  (∀ q, t.newestOf t.calUsed q → t.pst.step = some (.read q 8 486)) ∧
    ((∀ q, ¬ t.calUsed q) →
      t.mpa.device = .setup ∧ t.mpa.summary.getLsbD 8 = true ∧ t.pst.step = none ∧ t.pst.service = none)

/-- The scan's spare is settled as far as it goes in one event: with no ERASED patch page a writable store erases its
oldest FULL page without a current record (log 25), and otherwise the calibration step has begun (R150). -/
def State.spareBegun (t : State) : Prop :=
  let dead (v : PageId) : Prop := t.patchIs .full v ∧ t.noCurrent v
  (t.pst.readOnly = false → (∀ q, ¬ t.patchIs .erased q) →
    (∀ v, t.oldestOf dead v → t.pst.step = some (.erase v (2 + t.mpa.setup.eraseCode))) ∧
      ((∀ v, ¬ dead v) → t.calBegun)) ∧
    (t.pst.readOnly = true ∨ (∃ q, t.patchIs .erased q) → t.calBegun)

/-- The scan opens a head: the least erased page, with the next sequence of the region; with no ERASED page the store is
read-only and the calibration step has begun (R134, R150). -/
def State.headOpened (s t : State) : Prop :=
  (∀ q, s.leastErasedPage q → t.pst.step = some (.program q 2 0x50 (.header false)) ∧
    (t.page q).seq = s.pst.seqPatch ∧ t.pst.seqPatch = s.pst.seqPatch + 1) ∧
    ((∀ q, ¬ s.patchIs .erased q) → t.pst.readOnly = true ∧ t.calBegun)

/-- The scan settles the head over the page table of `s`: the newest head candidate becomes HEAD and every other one
FULL, their FULL bytes being programmed first; with no candidate a head is opened (R150). -/
def State.headSettled (s t : State) : Prop :=
  (∀ c, s.newestOf (s.patchIs .candidate) c →
    (t.page c).state = .head ∧ (∀ w, s.patchIs .candidate w → w ≠ c → (t.page w).state = .full) ∧
      ((∃ w, s.patchIs .candidate w ∧ w ≠ c) →
        ∃ w, s.patchIs .candidate w ∧ w ≠ c ∧ t.pst.step = some (.program w 1 0x00 .full)) ∧
      ((∀ w, s.patchIs .candidate w → w = c) → t.spareBegun ∧ (s.tooFew → t.pst.readOnly = true))) ∧
    ((∀ w, ¬ s.patchIs .candidate w) → s.headOpened t)

/-- A record that the walk can pass stands at an offset of a page's bytes: OPEN is not 0xFF, and the length is one of
five and does not carry it past the page (R149). -/
def recordAt (b : List Byte) (off : Nat) : Prop :=
  let units := (b.getD (off + 5) 0).toNat
  b.getD off 0xFF ≠ 0xFF ∧ (units = 2 ∨ units = 10 ∨ units = 12 ∨ units = 14 ∨ units = 16) ∧ off + 4 * units ≤ 512

/-- From an offset of a page's bytes, records stand at the offsets of the list, each behind the one before, up to
`stop` (R149). -/
def recordsTo (b : List Byte) : Nat → List Nat → Nat → Prop
  | off, [], stop => off = stop
  | off, r :: l, stop => r = off ∧ recordAt b off ∧ recordsTo b (off + 4 * (b.getD (off + 5) 0).toNat) l stop

/-- The record at an offset of a page's bytes is sealed and not retired, its length agrees with its flags, and it names
slot `k` (R132, R149, R205). -/
def offersSlot (b : List Byte) (off : Nat) (k : SlotId) : Prop :=
  let flags := b.getD (off + 4) 0
  let units := (b.getD (off + 5) 0).toNat
  b.getD (off + 1) 0xFF = 0x00 ∧ b.getD (off + 2) 0 = 0xFF ∧ (b.getD (off + 3) 0).toNat = k.val ∧
    if flags.getLsbD 2 = true then flags.getLsbD 0 = false ∧ flags.getLsbD 1 = false ∧ units = 2
    else units = 10 + 4 * (flags.getLsbD 0).toNat + 2 * (flags.getLsbD 1).toNat

/-- No record of the list supersedes another: each slot one of them offers has no entry and no second offer. -/
def State.allFresh (s : State) (b : List Byte) (l : List Nat) : Prop :=
  ∀ r ∈ l, ∀ k, offersSlot b r k → tget s.pst.index k = none ∧ ∀ r' ∈ l, r' ≠ r → ¬ offersSlot b r' k

/-- The walk goes on to the next page of the list, or settles the head after the last one, over the page table of `s`
(R149, R150). -/
def State.walkGoesOn (s t : State) (rest : List PageId) : Prop :=
  (∀ q more, rest = q :: more → t.pst.step = some (.read q 0 512)) ∧ (rest = [] → s.headSettled t)

/-- The walk has taken the records at the offsets of the list, in a page with these bytes, and stands at `stop`: the
records offered have their entries; a blank OPEN gives the write position; a length that cannot be passed makes the page
FULL, with its FULL byte programmed if it is blank; a record that supersedes another has that one's RETIRED byte
programmed first (R149). -/
def State.walked (s t : State) (b : List Byte) (p : PageId) (rest : List PageId) (l : List Nat) (stop : Nat) : Prop :=
  let full := s.putPage p { s.page p with state := .full }
  let supersedes (k : SlotId) (old : Loc) : Prop := recordAt b stop ∧ offersSlot b stop k ∧
    (tget s.pst.index k = some old ∨ ∃ r ∈ l, offersSlot b r k ∧ old = ⟨p, r⟩)
  (∀ k, (∀ r ∈ l, offersSlot b r k → tget t.pst.index k = some ⟨p, r⟩) ∧
    ((∀ r ∈ l, ¬ offersSlot b r k) → ¬ recordAt b stop ∨ (∃ k' old, supersedes k' old) →
      tget t.pst.index k = tget s.pst.index k)) ∧
    (b.getD stop 0xFF = 0xFF → (t.page p).writePos = stop ∧ s.walkGoesOn t rest) ∧
    (b.getD stop 0xFF ≠ 0xFF → ¬ recordAt b stop → (t.page p).state = .full ∧
      (b.getD 1 0 = 0xFF → t.pst.step = some (.program p 1 0x00 .full)) ∧
      (b.getD 1 0 ≠ 0xFF → full.walkGoesOn t rest)) ∧
    ∀ k old, supersedes k old → t.pst.step = some (.program old.page (old.off + 2) 0x00 .retired)

/-- The scan has counted the pages: each region's sequence counter is one past its newest page, or 0 without one, and the
walk begins with the oldest patch page; with none a head is opened (R148 to R150). -/
def State.scanCounted (t : State) : Prop :=
  let live (q : PageId) : Prop := t.patchIs .full q ∨ t.patchIs .candidate q
  (∀ c, t.newestOf live c → t.pst.seqPatch = (t.page c).seq + 1) ∧
    (∀ v, t.oldestOf live v → t.pst.step = some (.read v 0 512)) ∧
    ((∀ q, ¬ live q) →
      (∀ q, t.leastErasedPage q → t.pst.step = some (.program q 2 0x50 (.header false)) ∧ (t.page q).seq = 0) ∧
        ((∀ q, ¬ t.patchIs .erased q) → t.pst.seqPatch = 0 ∧ t.pst.readOnly = true ∧ t.calBegun)) ∧
    (∀ c, t.newestOf t.calUsed c → t.pst.seqCal = (t.page c).seq + 1) ∧ ((∀ q, ¬ t.calUsed q) → t.pst.seqCal = 0)

/-- Page `p` has been classified: the next page's header is read, or after the last one the scan has counted the pages
(R148). -/
def State.classifiedTo (t : State) (p : PageId) : Prop :=
  (∀ q : PageId, q.val = p.val + 1 → t.pst.step = some (.read q 0 8)) ∧ (p.val = 63 → t.scanCounted)

/-! ### The layout in RUN, and the image (R159, R160, R191) -/

/-- An area as RUN entry records it: whole units inside common memory, its cells inside its bounds, its position one of
its cells. -/
def Area.ok (a : Area) : Prop :=
  32 ≤ a.start ∧ a.start < a.stop ∧ a.stop ≤ 2048 ∧ (a.kind = .image → a.start + 88 ≤ a.stop) ∧
    (a.kind ≠ .image → a.pos < a.count ∧ a.count * a.kind.cellSize ≤ 4 * (a.stop - a.start))

/-- A request in flight has a cell of a REQUEST area. -/
def State.hasCell (s : State) (n : AreaId) (i : Nat) : Prop :=
  ∃ a, tget s.mpa.areas n = some a ∧ a.kind = .request ∧ i < a.count

/-- In RUN, the operation in service is one that the store queue brings, at a step of its own; the start-up scan is over
(R139 to R147, R150). -/
def Service.ownStep (svc : Service) (step : Option FlashStep) : Bool :=
  match svc.op, svc.phase with
  | .scan, _ => false
  | _, .waiting => true
  | .write _, .record _ _ | .write _, .markFull _ | .write _, .opening _ _ | .write _, .retiring
  | .write _, .copyRead _ | .write _, .erasing => true
  | .storeCal _, .calErase _ | .storeCal _, .opening _ _ | .storeCal _, .calRecord _ _ | .storeCal _, .markFull _ => true
  | .recall _ _, .recordRead | .info _, .recordRead | .revertCal _, .calRead _ _ =>
    match step with
    | some (.read _ _ _) => true
    | _ => false
  | _, _ => false

/-- In RUN the areas lie apart, at most one is the image, every request in flight has its cell, and the store's
operation is at a step of its own; outside RUN no request is in flight, and in SETUP the store has nothing in service
(R151, R156, R160, R162, R179). -/
def State.layoutOk (s : State) : Prop :=
  if s.mpa.device = .run then
    (∀ n a, tget s.mpa.areas n = some a → a.ok) ∧
      (∀ m n a b, m ≠ n → tget s.mpa.areas m = some a → tget s.mpa.areas n = some b →
        (a.stop ≤ b.start ∨ b.stop ≤ a.start) ∧ ¬ (a.kind = .image ∧ b.kind = .image)) ∧
      (∀ j, s.tun.job = some j → s.hasCell j.area j.cell) ∧ (∀ e ∈ s.rqu.queue, s.hasCell e.area e.cell) ∧
      ∀ svc, s.pst.service = some svc → svc.ownStep s.pst.step = true
  else s.tun.job = none ∧ s.rqu.queue = [] ∧ (s.mpa.device = .setup → s.pst.service = none)

/-- The image reads as its sources stand, while one is active (R191 to R194). -/
def State.imageTrue (s : State) : Prop := ∀ base, s.imageBase = some base → readsAs s base s.wholeImage

/-- A command that may write bytes of the host's choice: a plain host write, or a PART_EXPORT, whether as its row or as
the cell that an arrival or a look takes. -/
def State.writesFreely (s : State) : Instr → Prop
  | .hostMemoryWrite _ => True
  | .partExport _ _ _ => True
  | .arrival n other => ∃ a, s.areaOf n .request = some a ∧ other.getD (s.peek (a.cellAddr a.pos + 1)) = 0x07
  | .look n => ∃ a, s.areaOf n .request = some a ∧ s.peek (a.cellAddr a.pos + 1) = 0x07
  | _ => False

/-! ### Commands as cells -/

/-- The kind and arguments of the request cell that a request row stands for (R174, R198). -/
def requestCell : Instr → Option (AreaId × ReqKind × List Byte)
  | .setParam n id value => some (n, .setParam, id :: wordBytes value)
  | .setVoicing n part block => some (n, .setVoicing, part :: block.toList)
  | .setKeyboard n mode split map => some (n, .setKeyboard, mode :: split :: wordBytes map)
  | .selectEdit n part => some (n, .selectEdit, [part])
  | .mapKnob n knob target mode => some (n, .mapKnob, [knob, target, mode])
  | .mapSwitch n switch func => some (n, .mapSwitch, [switch, func])
  | .partExport n part offset => some (n, .partExport, part :: wordBytes offset)
  | .partImport n part offset => some (n, .partImport, part :: wordBytes offset)
  | .clearRange n mask => some (n, .clearRange, leBytes 3 mask.toNat)
  | .tune n oscMask anchorMask mode background =>
    some (n, .tune, leBytes 4 oscMask.toNat ++ wordBytes anchorMask ++ [mode, background])
  | .tuneAbort n => some (n, .tuneAbort, [])
  | .recall n slot part => some (n, .recall, [slot, part])
  | .store n part slot flags => some (n, .store, [part, slot, flags])
  | .eraseSlot n slot => some (n, .eraseSlot, [slot])
  | .slotInfo n slot => some (n, .slotInfo, [slot])
  | .storeCal n => some (n, .storeCal, [])
  | .revertCal n => some (n, .revertCal, [])
  | .storeStatus n => some (n, .storeStatus, [])
  | .deviceReset _ | .run | .restart | .summaryEcho _ _ | .enableWrite _ _ | .hostMemoryWrite _ | .arrival _ _ | .look _
  | .keyOn _ _ _ _ _ | .keyOff _ _ _ _ | .bend _ _ _ _ | .pedal _ _ _ _ | .allOff _ _ _ | .programCompletion _
  | .eraseCompletion _ | .readCompletion | .load | .channelWritten | .gapExpiry _ | .holdExpiry _ | .glideExpiry
  | .settleExpiry _ | .measurementCompletion _ _ | .noSignal _ | .knobScanExpiry | .knobSample _ | .switchSample _
  | .roomEvent _ _ | .tinRisingEdge _ _ => none

end Sys2Proof.Machine
end

