-- ==== Sys2Proof/Certificates/Slice0/Obligations.lean ====
section
/-! DEFINITION. The statements for the provers.  Where a statement rests on a choice of the model rather than on a rule
of the spec, its docstring names the log entry. -/

section

open Sys2Proof Sys2Proof.Machine

/-! ### The queue of commands, and reset -/

/-- A step carries out the command at the front of the queue on the state with the queue's rest; with no command
waiting the part stays as it is (log 11). -/
def Obligations.StepRunsTheFrontCommand : Prop :=
  ∀ (c : Instr) (s : State),
    step (s.withPending (c :: s.pending)) = exec c s ∧ (s.pending = [] → step s = .next s)

/-- What the reset tables give every block after device reset (R1, R40, R72, R75, R95, R110, R129, R152, R158, R171,
R188). The state after device reset meets every invariant below. -/
def Obligations.ResetLeavesTheTables : Prop :=
  (let s := State.reset
  (s.mpa.device = .starting ∧ s.mpa.faultCode = .none ∧ s.mpa.faultEntry = 0 ∧ s.mpa.summary = 0 ∧ s.mpa.enable = 0 ∧
    s.mpa.setup = ⟨1, 2, 0, 8, 244624, 141, 6, 2, 6, 8, 4, 6⟩ ∧ (∀ n : AreaId, tget s.mpa.areas n = none)) ∧
  (∀ a : Nat, s.peek a = 0) ∧
  (s.rqu.queue = [] ∧ s.tun.job = none ∧ s.tun.basis = none ∧
    (∀ (o : OscId) (k : AnchorId), (tget (tget s.tun.anchors o) k).val = 12288 + 6144 * k.val) ∧
    (∀ o : OscId, tget s.tun.trust o = 0 ∧ tget s.tun.outcomes o = ⟨0, 0⟩) ∧
    ∀ c : CardId, (s.chan c).state = .idle ∧ (s.chan c).osc = none ∧ (s.chan c).voice = none ∧ (s.chan c).select = 0) ∧
  (s.nrt.mode = .single ∧ s.nrt.split = 60 ∧ s.nrt.map = 0 ∧
    ∀ p : Part, s.held p = [] ∧ s.nrt.pedal.get p = false ∧ s.nrt.bend.get p = 0) ∧
  (s.val.onset = 0 ∧ s.val.free = allVoices ∧ s.val.busy = [] ∧ s.val.tune = [] ∧
    (∀ p : Part, s.val.group.get p = 0) ∧
    ∀ v : VoiceId, s.voice v =
      ⟨.free, .A, none, 0, 0, 15360, 0, false, false, false, false, false, false, false, false, false, false⟩) ∧
  (s.rfe.jump = [] ∧ s.rfe.stamp = 0 ∧ ∀ o : OscId, tget s.rfe.overrides o = none) ∧
  (s.prb.edit = .A ∧ (∀ i : ParamId, tget s.prb.params i = 2048) ∧
    ∀ p : Part, s.voicing p = ⟨.poly, 2, .last, .off, 2, 0, .oldest, false, .multi⟩ ∧
      ∀ i : Fin 16, tget (s.prb.name.get p) i = 0x20) ∧
  (s.psc.pass = none ∧ s.psc.armed = 2 ∧ (∀ i : KnobId, s.knob i = ⟨0, .none, .none, false, .below⟩) ∧
    ∀ j : SwitchId, tget s.psc.switches j =
      ⟨false, 0, if j.val = 64 then .sustainA else if j.val = 65 then .sustainB else .report⟩) ∧
  (s.pst.readOnly = false ∧ s.pst.currentCal = none ∧ ∀ k : SlotId, tget s.pst.index k = none) ∧
  s.rpu.fault = none ∧ (∀ i : KnobId, tget s.rpu.knobs i = false) ∧ (∀ j : SwitchId, tget s.rpu.switches j = false) ∧
    ∀ o : OscId, tget s.rpu.oscs o = false) ∧
  (State.reset.memoryOk ∧ State.reset.jumpOk ∧ State.reset.keysOk ∧ State.reset.flightOk ∧ State.reset.listsOk ∧
    State.reset.timersOk ∧ State.reset.tablesOk ∧ State.reset.rangesOk ∧ State.reset.layoutOk ∧ State.reset.imageTrue)

/-- DEVICE_RESET zero-fills common memory, resets every block and starts the scan; with no flash step in progress the
flash keeps its content (R152, R171). While RESET is held low the part keeps the reset values with its outputs at
their levels and HD0 to HD15 at high impedance, and every host write is lost; the end of the reset then leaves what a
reset taken as one event leaves (R207). -/
def Obligations.DeviceResetClearsThePart : Prop :=
  (∀ s : State, ∃ t, exec (.deviceReset false) s = .next t ∧ t.mpa = State.reset.mpa ∧ (∀ a : Nat, t.peek a = 0) ∧
    t.rqu = State.reset.rqu ∧ t.nrt = State.reset.nrt ∧ t.val = State.reset.val ∧ t.tun = State.reset.tun ∧
    t.prb = State.reset.prb ∧ t.psc = State.reset.psc ∧ t.pst = State.reset.pst ∧ t.rpu = State.reset.rpu ∧
    t.rfe.jump = [] ∧ t.rfe.stamp = 0 ∧ (∀ o : OscId, tget t.rfe.overrides o = none) ∧ t.pst.step.isSome = true ∧
    t.pending = s.pending ∧ (s.pst.step = none → t.flash = s.flash)) ∧
  (∀ s : State, ∃ t, exec (.deviceReset true) s = .next t ∧ (∀ a : Nat, t.peek a = 0) ∧ t.pst.step = none ∧
    t.rfe.slot = none ∧ t.interrupt = false ∧ (∀ v : VoiceId, t.gatePin v = false) ∧ t.dacCs = true ∧
    t.shstb = false ∧ t.rfe.sha = 0 ∧ (∀ h : Fin 48, t.dacClk h = false ∧ t.dacData h = false) ∧
    (∀ c : CardId, (t.chan c).select = 0) ∧ (∀ turn d, t.swdLine turn d = true) ∧
    (∀ r : HostRead, t.hostReadCycle r = ⟨none, none⟩) ∧ t.pending = s.pending ∧
    (s.pst.step = none → t.flash = s.flash) ∧
    (∀ (c : Instr), (∃ w, c = .hostMemoryWrite w) ∨ (∃ high x, c = .summaryEcho high x ∨ c = .enableWrite high x) ∨
      c = .run ∨ c = .restart → exec c t = .next t) ∧
    ∃ u, exec (.deviceReset false) t = .next u ∧ u.mpa = State.reset.mpa ∧ u.mem = State.reset.mem ∧
      u.pst = State.reset.pst ∧ u.rfe.slot = State.reset.rfe.slot ∧ u.flash = t.flash ∧ u.rfe.cv = t.rfe.cv ∧
      u.rfe.dacOut = t.rfe.dacOut)

/-! ### Invariants that every step keeps -/

/-- Both memories stay in canonical form. -/
def Obligations.MemoryStaysCanonical : Prop := ∀ s t : State, s.memoryOk → step s = .next t → t.memoryOk

/-- The jump queue stays within 32 entries without repetition (R66), each held-key list within 16 entries with each key
once (R34), and the store queue within four; no STORE_CAL or REVERT_CAL stands in it beside a tune job, and at most
five requests are in flight (R85, R139, R179). -/
def Obligations.QueuesStayBounded : Prop :=
  (∀ s t : State, step s = .next t → (s.jumpOk → t.jumpOk) ∧ (s.keysOk → t.keysOk)) ∧
  (∀ s t : State, s.flightOk → step s = .next t → t.flightOk ∧ t.inFlight ≤ 5)

/-- Every voice stays in exactly the list its state names (R2). -/
def Obligations.VoicesStayListed : Prop := ∀ s t : State, s.listsOk → step s = .next t → t.listsOk

/-- The hold timer runs only under an open gate, the gap timer only in PENDING, and a deferred release waits only where
R11 puts it. -/
def Obligations.TimersStayTiedToStates : Prop := ∀ s t : State, s.timersOk → step s = .next t → t.timersOk

/-- Every anchor table stays strictly rising (R83, R93). -/
def Obligations.TablesStayRising : Prop := ∀ s t : State, s.tablesOk → step s = .next t → t.tablesOk

/-- Setup values, voicing blocks and bend values stay in their ranges (R31, R100, R158). -/
def Obligations.ConditionedValuesStayInRange : Prop := ∀ s t : State, s.rangesOk → step s = .next t → t.rangesOk

/-! ### The port: registers, RUN, RESTART, host writes -/

/-- A write to SUMMARY clears the bits written as 1 in the byte written, a write to ENABLE stores bits 0 to 8 of the
byte written, and both read back with bits 9 to 15 at 0 (R168). The interrupt line is asserted exactly while some
bit is set in both, in every device state, and so at the end of a scan with ENABLE bit 8 set (R169). The writes are
host cycles, so the port is open: RESET is not held low (R153, R207). -/
def Obligations.RegistersAndInterruptLine : Prop :=
  (State.reset.mpa.enable = 0 ∧
  ∀ (s : State) (high : Bool) (data : Byte), s.mpa.device ≠ .held →
    (∃ t, exec (.summaryEcho high data) s = .next t ∧
      t = { s with mpa := { s.mpa with summary := t.mpa.summary } } ∧
      ∀ i : Fin 9, t.mpa.summary.getLsbD i.val =
        (s.mpa.summary.getLsbD i.val && !(high == decide (8 ≤ i.val) && data.getLsbD (i.val % 8)))) ∧
    (∃ t, exec (.enableWrite high data) s = .next t ∧
      t = { s with mpa := { s.mpa with enable := t.mpa.enable } } ∧
      ∀ i : Fin 9, t.mpa.enable.getLsbD i.val =
        if high = decide (8 ≤ i.val) then data.getLsbD (i.val % 8) else s.mpa.enable.getLsbD i.val) ∧
    ∀ j : Fin 8,
      (s.hostRead 0x3FF1).getLsbD j.val = s.mpa.summary.getLsbD j.val ∧
      (s.hostRead 0x3FF2).getLsbD j.val = (decide (j.val = 0) && s.mpa.summary.getLsbD 8) ∧
      (s.hostRead 0x3FF3).getLsbD j.val = s.mpa.enable.getLsbD j.val ∧
      (s.hostRead 0x3FF4).getLsbD j.val = (decide (j.val = 0) && s.mpa.enable.getLsbD 8)) ∧
  (∀ s : State,
    (s.interrupt = true ↔ ∃ i : Fin 9, s.mpa.summary.getLsbD i.val = true ∧ s.mpa.enable.getLsbD i.val = true) ∧
    (s.mpa.enable.getLsbD 8 = true → s.scanEnd.interrupt = true))

/-- CONTROL takes 0x01 in SETUP and 0x02 in RUN and ignores everything else; the two bytes of SUMMARY and of ENABLE are
reached at their offsets; no other offset at 0x2000 or above has an effect (R153, R157). A 16-bit write at the
registers acts as its low byte and then its high byte (the model's order, log 15), and one at an odd offset as its high
byte. STATUS shows the three flags in STARTING and RUN (R155, R196). Common memory reads as it stands and every offset
without a register as 0; a read cycle gives one byte on its lane, an aligned pair, or, with neither byte enable, no byte
(R153; the lanes: log 15). -/
def Obligations.RegistersOfTheWindow : Prop :=
  (∀ (s : State) (x : Byte),
    (s.mpa.device ≠ .setup → exec .run s = .next s) ∧ (s.mpa.device ≠ .run → exec .restart s = .next s) ∧
    exec (.hostMemoryWrite (.byte 0x3FF0 x)) s =
      (if x = 1 then exec .run s else if x = 2 then exec .restart s else .next s) ∧
    exec (.hostMemoryWrite (.byte 0x3FF1 x)) s = exec (.summaryEcho false x) s ∧
    exec (.hostMemoryWrite (.byte 0x3FF2 x)) s = exec (.summaryEcho true x) s ∧
    exec (.hostMemoryWrite (.byte 0x3FF3 x)) s = exec (.enableWrite false x) s ∧
    exec (.hostMemoryWrite (.byte 0x3FF4 x)) s = exec (.enableWrite true x) s ∧
    ∀ off : BitVec 14, 0x2000 ≤ off.toNat → (off.toNat < 0x3FF0 ∨ 0x3FF4 < off.toNat) →
      exec (.hostMemoryWrite (.byte off x)) s = .next s) ∧
  (∀ (s : State) (off : BitVec 14) (x y : Byte), 0x2000 ≤ off.toNat →
    (off.toNat % 2 = 0 → ∃ t, exec (.hostMemoryWrite (.byte off x)) s = .next t ∧
      exec (.hostMemoryWrite (.wide off x y)) s = exec (.hostMemoryWrite (.byte (off + 1) y)) t) ∧
    (off.toNat % 2 = 1 → exec (.hostMemoryWrite (.wide off x y)) s = exec (.hostMemoryWrite (.byte off y)) s) ∧
    exec (.hostMemoryWrite (.idle off)) s = .next s) ∧
  ∀ s : State,
    (s.mpa.device = .starting ∨ s.mpa.device = .run →
      (s.hostRead 0x3FF0).getLsbD 0 = false ∧
      (s.hostRead 0x3FF0).getLsbD 1 = decide (s.mpa.device = .run) ∧
      ((s.hostRead 0x3FF0).getLsbD 2 = true ↔ s.rqu.queue ≠ [] ∨ s.pst.step ≠ none) ∧
      ((s.hostRead 0x3FF0).getLsbD 3 = true ↔ s.tun.job ≠ none) ∧
      (s.hostRead 0x3FF0).getLsbD 4 = s.pst.readOnly ∧
      ∀ i : Nat, 5 ≤ i → (s.hostRead 0x3FF0).getLsbD i = false) ∧
    ∀ off : BitVec 14,
      (off.toNat < 0x2000 → s.hostRead off = s.peek off.toNat) ∧
      (0x2000 ≤ off.toNat → (off.toNat < 0x3FF0 ∨ 0x3FF4 < off.toNat) → s.hostRead off = 0) ∧
      (s.mpa.device ≠ .held →
        (off.toNat % 2 = 0 → s.hostReadCycle (.byte off) = ⟨some (s.hostRead off), none⟩ ∧
          s.hostReadCycle (.wide off) = ⟨some (s.hostRead off), some (s.hostRead (off + 1))⟩) ∧
        (off.toNat % 2 = 1 → s.hostReadCycle (.byte off) = ⟨none, some (s.hostRead off)⟩ ∧
          s.hostReadCycle (.wide off) = ⟨none, some (s.hostRead off)⟩)) ∧
      s.hostReadCycle (.idle off) = ⟨none, none⟩

/-- A host write to common memory that is neither an arrival nor a room event is stored and does nothing else; a pair at
an odd offset is a one-byte access, and a cycle without a byte enable writes nothing (R153, R164, R166). That this byte is
the one of the high lane is the model's reading of the pins (chapter 12, Pins and electrical limits; log 15).
A host write cycle that stores POSTED into the mark at the position of one NOTE or REQUEST area is that area's
arrival, and one that stores EMPTY into the mark at the fill position of one REPORT area is its room event; a pair
carries the byte after the mark with it (R164, R166). -/
def Obligations.HostWriteCycles : Prop :=
  (∀ (s : State) (off : BitVec 14) (lo hi : Byte), s.memoryOk → s.mpa.device ≠ .held → off.toNat < 0x2000 →
    (∀ n a, s.active n = some a → a.cellAddr a.pos = off.toNat →
      (a.kind = .note ∨ a.kind = .request → lo ≠ markPosted) ∧ (a.kind = .report → lo ≠ markEmpty)) →
    (∃ t, exec (.hostMemoryWrite (.byte off lo)) s = .next t ∧ t = { s with mem := t.mem } ∧ t.peek off.toNat = lo ∧
      sameMemoryBut (· = off.toNat) s t) ∧
    (off.toNat % 2 = 0 → ∃ t, exec (.hostMemoryWrite (.wide off lo hi)) s = .next t ∧ t = { s with mem := t.mem } ∧
      t.peek off.toNat = lo ∧ t.peek (off.toNat + 1) = hi ∧
      sameMemoryBut (fun a => a = off.toNat ∨ a = off.toNat + 1) s t) ∧
    (off.toNat % 2 = 1 →
      exec (.hostMemoryWrite (.wide off lo hi)) s = exec (.hostMemoryWrite (.byte off hi)) s) ∧
    exec (.hostMemoryWrite (.idle off)) s = .next s) ∧
  (∀ (s : State) (n : AreaId) (a : Area) (off : BitVec 14) (x : Byte), s.active n = some a → off.toNat < 0x2000 →
    a.cellAddr a.pos = off.toNat → (∀ m b, s.active m = some b → m ≠ n → b.cellAddr b.pos ≠ off.toNat) →
    (a.kind = .note ∨ a.kind = .request →
      exec (.hostMemoryWrite (.byte off 0xA5)) s = exec (.arrival n none) s ∧
      exec (.hostMemoryWrite (.wide off 0xA5 x)) s = exec (.arrival n (some x)) s) ∧
    (a.kind = .report →
      exec (.hostMemoryWrite (.byte off 0x00)) s = exec (.roomEvent n none) s ∧
      exec (.hostMemoryWrite (.wide off 0x00 x)) s = exec (.roomEvent n (some x)) s))

/-- A RUN entry whose directory fails leaves the part in SETUP with the code and the entry in STATUS and SUMMARY bit 8
set, and everything else as it was (R161). The code and the entry are those of the first check that fails: the entries
are taken in order, each through its seven checks in order (R155, R160). -/
def Obligations.FailedRunEntry : Prop :=
  (∀ (s : State) (n : AreaId) (f : DirFault), s.mpa.device = .setup → s.validate [] allAreas = some (n, f) →
    ∃ t, exec .run s = .next t ∧ t.status.toNat = 1 + 4 * f.code + 32 * n.val ∧
      t.mpa.summary.getLsbD 8 = true ∧
      t = { s with mpa := { s.mpa with faultCode := f, faultEntry := n, summary := t.mpa.summary } } ∧
      ∀ i : Fin 8, t.mpa.summary.getLsbD i.val = s.mpa.summary.getLsbD i.val) ∧
  ∀ (s : State) (n : AreaId) (k : DirCheck), s.mpa.device = .setup →
    (∀ (m : AreaId) (k' : DirCheck), m < n → (s.readEntry m).kind ≠ 0 → ¬ s.failsCheck m k') →
    (s.readEntry n).kind ≠ 0 → s.failsCheck n k → (∀ k' : DirCheck, k'.rank < k.rank → ¬ s.failsCheck n k') →
    ∃ t, exec .run s = .next t ∧ t.status.toNat = 1 + 4 * k.code + 32 * n.val ∧ t.mpa.device = .setup ∧
      t.mpa.summary.getLsbD 8 = true

/-- RUN taken in SETUP enters RUN exactly when the directory is one that R160 accepts. -/
def Obligations.RunAcceptsExactlyValidDirectories : Prop :=
  ∀ s : State, s.mpa.device = .setup →
    ∃ t, exec .run s = .next t ∧ (t.mpa.device = .run ↔ s.directoryOk) ∧ (t.mpa.device = .run ∨ t.mpa.device = .setup)

/-- A RUN entry that passes installs the clamped setup values and the area table, writes the cell counts, makes the
target check, writes the image, begins the baseline pass and enters RUN (R158, R162, R191, R195). Each class is joined
to the one REPORT area that lists it, the looks of NOTE and REQUEST areas fall due, and no byte of memory changes but
the count bytes of cell areas and the image (R162, R164, R186). -/
def Obligations.SuccessfulRunEntry : Prop :=
  ∀ s : State, s.memoryOk → s.mpa.device = .setup → s.directoryOk →
    ∃ t, exec .run s = .next t ∧ t.mpa.device = .run ∧ t.mpa.faultCode = .none ∧ t.mpa.faultEntry = 0 ∧
      t.mpa.summary.getLsbD 8 = true ∧ t.mpa.enable = s.mpa.enable ∧ t.mpa.setup.ok ∧
      t.mpa.setup =
        { gateGap := min (s.peek 0x00).toNat 15, gateHold := min (s.peek 0x01).toNat 15
          divider := min (s.peek 0x02).toNat 15, dwell := max 1 (min (s.peek 0x03).toNat 63)
          targetT := max 120000 (min (s.peekLe 0x04 4) 500000), tolerance := max 1 (min (s.peekLe 0x08 2) 4095)
          settle := max 1 (min (s.peek 0x0A).toNat 63), scanInterval := max 1 (min (s.peek 0x0B).toNat 16)
          endZone := min (s.peek 0x0C).toNat 32, deadband := max 1 (min (s.peek 0x0D).toNat 64)
          debounce := max 1 (min (s.peek 0x0E).toNat 15), eraseCode := min (s.peek 0x0F).toNat 15 } ∧
      (∀ n : AreaId,
        ((s.readEntry n).kind = 0 → tget t.mpa.areas n = none) ∧
        ∀ k, (s.readEntry n).areaKind = some k → ∃ a, tget t.mpa.areas n = some a ∧ a.kind = k ∧
          a.start = (s.readEntry n).start ∧ a.stop = (s.readEntry n).stop ∧ a.joins = (s.readEntry n).joins ∧
          a.pos = 0 ∧ a.lookDue = decide (k = .note ∨ k = .request) ∧
          (k = .image → readsAs t (4 * a.start) t.wholeImage) ∧
          (k ≠ .image → a.count = 4 * (a.stop - a.start) / k.cellSize ∧ t.peekLe (entryAddr n + 6) 2 = a.count)) ∧
      t.tun.basis = some t.mpa.setup.targetT ∧ t.tun.anchors = s.tun.anchors ∧
      (s.tun.basis = some t.mpa.setup.targetT → t.tun.trust = s.tun.trust) ∧
      (s.tun.basis ≠ some t.mpa.setup.targetT → ∀ o : OscId, tget t.tun.trust o = 0) ∧
      t.psc.pass = some ⟨true, 0⟩ ∧ t.psc.armed = t.mpa.setup.scanInterval ∧ t.psc.knobs = s.psc.knobs ∧
      t.val = s.val ∧ t.rfe = s.rfe ∧ t.nrt = s.nrt ∧ t.prb = s.prb ∧ t.pst = s.pst ∧ t.rqu = s.rqu ∧
      t.flash = s.flash ∧
      (∀ n : AreaId,
        let joins (cls : Nat) : Prop := ∃ a, tget t.mpa.areas n = some a ∧ a.kind = .report ∧ a.joins.getLsbD cls = true
        (t.rpu.panelArea = some n ↔ joins 0) ∧ (t.rpu.tuneArea = some n ↔ joins 1) ∧
          (t.rpu.voiceArea = some n ↔ joins 2) ∧ (t.rpu.faultArea = some n ↔ joins 3)) ∧
      t.rpu.knobs = s.rpu.knobs ∧ t.rpu.switches = s.rpu.switches ∧ t.rpu.oscs = s.rpu.oscs ∧ t.rpu.fault = s.rpu.fault ∧
      sameMemoryBut (fun b => t.inImage 0 352 b ∨
        ∃ n a, tget t.mpa.areas n = some a ∧ a.kind ≠ .image ∧ inCell (entryAddr n + 6) 2 b) s t

/-- RESTART in RUN returns the part to SETUP and takes every block's RESTART action, and keeps everything else: the
recorded areas and joins, the DAC, its lines and the sample-and-hold channels among it (R28, R42, R72, R95, R110, R129,
R152, R170, R185, R190). -/
def Obligations.RestartReturnsToSetup : Prop :=
  ∀ s : State, s.mpa.device = .run → ∃ t, exec .restart s = .next t ∧
    t.mpa.device = .setup ∧ t.mpa.summary = 256 ∧ t.mpa.enable = s.mpa.enable ∧ t.mpa.setup = s.mpa.setup ∧
    t.mpa.faultCode = s.mpa.faultCode ∧ t.mpa.faultEntry = s.mpa.faultEntry ∧ t.mem = s.mem ∧ t.flash = s.flash ∧
    (∀ n : AreaId, t.active n = none) ∧
    (∀ v : VoiceId, t.voice v =
      { s.voice v with state := .free, gapRunning := false, holdRunning := false, offDeferred := false,
                       glideActive := false, aWritten := false, bWritten := false, unison := 0 }) ∧
    t.val.free = s.val.free ++ (allVoices.filter fun v => (s.voice v).state != .free) ∧ t.val.busy = [] ∧
    t.val.tune = [] ∧ t.val.onset = s.val.onset ∧ (∀ p : Part, t.val.group.get p = 0) ∧
    (∀ p : Part, t.held p = [] ∧ t.nrt.pedal.get p = false ∧ t.nrt.bend.get p = 0) ∧ t.nrt.mode = s.nrt.mode ∧
    t.nrt.split = s.nrt.split ∧ t.nrt.map = s.nrt.map ∧
    t.rfe.jump = [] ∧ (∀ o : OscId, tget t.rfe.overrides o = none) ∧ t.rfe.round = s.rfe.round ∧
    t.rfe.stamp = s.rfe.stamp ∧ t.rfe.slot = s.rfe.slot ∧
    t.tun.job = none ∧ t.tun.anchors = s.tun.anchors ∧ t.tun.trust = s.tun.trust ∧ t.tun.basis = s.tun.basis ∧
    t.tun.outcomes = s.tun.outcomes ∧
    (∀ c : CardId, (t.chan c).state = .idle ∧ (t.chan c).osc = none ∧ (t.chan c).voice = none ∧
      (t.chan c).select = (s.chan c).select) ∧
    t.prb = s.prb ∧ t.psc = s.psc ∧ t.rqu.queue = [] ∧ t.pst = { s.pst with service := none } ∧
    t.rpu.fault = none ∧ (∀ i : KnobId, tget t.rpu.knobs i = false) ∧
    (∀ j : SwitchId, tget t.rpu.switches j = false) ∧ (∀ o : OscId, tget t.rpu.oscs o = false) ∧
    t.mpa.areas = s.mpa.areas ∧
    t.rfe = { s.rfe with jump := [], overrides := t.rfe.overrides } ∧ t.dacCs = s.dacCs ∧ t.shstb = s.shstb ∧
    (∀ h : Fin 48, t.dacClk h = s.dacClk h ∧ t.dacData h = s.dacData h) ∧
    (∀ c : CardId, t.chan c =
      { s.chan c with state := .idle, osc := none, voice := none, rest := [], periods := none }) ∧
    t.rpu = { s.rpu with knobs := t.rpu.knobs, switches := t.rpu.switches, oscs := t.rpu.oscs, fault := none } ∧
    t.pending = s.pending

/-! ### Cells: arrivals, looks, refusals -/

/-- The arrival of a posted request cell does what the row of its kind does: for each of the eighteen kinds, in every
cell that holds the kind, its length and the arguments, whether the kind stood in the cell or the arrival's pair
carries it after the mark (R164, R172, R174, R198). -/
def Obligations.ArrivalOfARequestCell : Prop :=
  ∀ (s : State) (c : Instr) (n : AreaId) (kind : ReqKind) (args : List Byte) (at' : Nat) (other : Option Byte),
    s.memoryOk → requestCell c = some (n, kind, args) → s.requestAt n at' →
    other.getD (s.peek (at' + 1)) = kind.code → s.peek (at' + 2) = kind.argBytes → readsAs s (at' + 6) args →
    ∃ t, exec (.arrival n other) s = .next t ∧ exec c s = .next t ∧ advanced s t n

/-- The arrival of a posted note cell does what the row of its kind does, whether the kind stood in the cell or the
arrival's pair carries it after the mark (R29, R164, R197). -/
def Obligations.ArrivalOfANoteCell : Prop :=
  ∀ (s : State) (n : AreaId) (at' : Nat) (part key velocity source : Byte) (value : BitVec 16) (other : Option Byte),
    s.memoryOk → s.noteAt n at' → s.peek (at' + 2) = part → s.peek (at' + 7) = source →
    let kind := other.getD (s.peek (at' + 1))
    (kind = 0x01 → s.peek (at' + 3) = key → s.peek (at' + 4) = velocity →
      ∃ t, exec (.arrival n other) s = .next t ∧ exec (.keyOn n part key velocity source) s = .next t ∧
        advanced s t n) ∧
    (kind = 0x02 → s.peek (at' + 3) = key →
      ∃ t, exec (.arrival n other) s = .next t ∧ exec (.keyOff n part key source) s = .next t ∧ advanced s t n) ∧
    (kind = 0x03 → s.peekLe (at' + 5) 2 = value.toNat →
      ∃ t, exec (.arrival n other) s = .next t ∧ exec (.bend n part value source) s = .next t ∧ advanced s t n) ∧
    (kind = 0x04 → s.peek (at' + 4) = velocity →
      ∃ t, exec (.arrival n other) s = .next t ∧ exec (.pedal n part velocity source) s = .next t ∧ advanced s t n) ∧
    (kind = 0x05 →
      ∃ t, exec (.arrival n other) s = .next t ∧ exec (.allOff n part source) s = .next t ∧ advanced s t n)

/-- A look that is due takes a POSTED cell as an arrival does, and waits on any other mark with nothing else changed
(R164, R165). -/
def Obligations.LookTakesOrWaits : Prop :=
  ∀ (s : State) (n : AreaId) (a : Area), s.memoryOk → s.active n = some a → a.kind = .note ∨ a.kind = .request →
    a.lookDue = true → a.cellAddr a.pos < Config.memSize →
    (s.peek (a.cellAddr a.pos) = markPosted →
      ∃ t, exec (.look n) s = .next t ∧ exec (.arrival n none) s = .next t ∧ advanced s t n) ∧
    (s.peek (a.cellAddr a.pos) ≠ markPosted →
      exec (.look n) s = .next (s.setArea n { a with lookDue := false }))

/-- A taken request cell whose kind is none of the eighteen codes is refused with BAD_KIND, and one whose length is not
its kind's with BAD_LENGTH; no other block changes (R173). An index argument out of range, or a TUNE with an empty
mask, is refused with BAD_ARGUMENT; no other block changes (R173, R174). -/
def Obligations.RefusedRequests : Prop :=
  (∀ (s : State) (n : AreaId) (at' : Nat), s.memoryOk → s.requestAt n at' →
    ((∀ k : ReqKind, s.peek (at' + 1) ≠ k.code) →
      ∃ t, exec (.arrival n none) s = .next t ∧ onlyAnswered s t n at' .badKind) ∧
    ∀ k : ReqKind, s.peek (at' + 1) = k.code → s.peek (at' + 2) ≠ k.argBytes →
      ∃ t, exec (.arrival n none) s = .next t ∧ onlyAnswered s t n at' .badLength) ∧
  (∀ (s : State) (c : Instr) (n : AreaId) (at' : Nat), s.memoryOk → s.requestAt n at' →
    ((∃ id value, c = .setParam n id value ∧ 40 ≤ id.toNat) ∨
      (∃ part block, c = .setVoicing n part block ∧ part ≠ 1 ∧ part ≠ 2) ∨
      (∃ part, c = .selectEdit n part ∧ part ≠ 1 ∧ part ≠ 2) ∨
      (∃ knob target mode, c = .mapKnob n knob target mode ∧
        (48 ≤ knob.toNat ∨ (40 ≤ target.toNat ∧ target.toNat < 64) ∨ (80 ≤ target.toNat ∧ target.toNat < 255))) ∨
      (∃ switch func, c = .mapSwitch n switch func ∧ 66 ≤ switch.toNat) ∨
      (∃ part offset, (c = .partExport n part offset ∨ c = .partImport n part offset) ∧
        ((part ≠ 1 ∧ part ≠ 2) ∨ offset.toNat < 0x0080 ∨ 0x1FC8 < offset.toNat)) ∨
      (∃ oscs anchors mode background, c = .tune n oscs anchors mode background ∧
        (oscs.toNat % 2 ^ 24 = 0 ∨ anchors.toNat % 2 ^ 9 = 0)) ∨
      (∃ slot part, c = .recall n slot part ∧ (200 ≤ slot.toNat ∨ part = 0 ∨ 3 < part.toNat)) ∨
      (∃ part slot flags, c = .store n part slot flags ∧ (200 ≤ slot.toNat ∨ (part ≠ 1 ∧ part ≠ 2))) ∨
      ∃ slot, (c = .eraseSlot n slot ∨ c = .slotInfo n slot) ∧ 200 ≤ slot.toNat) →
    ∃ t, exec c s = .next t ∧ onlyAnswered s t n at' .badArgument)

/-! ### Reports -/

/-- Emission chooses the fault first, then oscillators, then knobs, then switches, each by ascending number, of the
classes that the area joins alone (R189). A room event with nothing pending only stores the EMPTY mark; with a fault
pending in a class the area joins, the fault is the first report written into the freed cell: NOTE_FAULT with its
content, FULL in the mark, the attention bit set and the fill position advanced (R166, R187 to R189). Whatever the
chosen report, KNOB, SWITCH, TUNE_OSC or NOTE_FAULT, its cell holds its kind, index, value and aux as its source
stands, and its flag or slot is cleared (R123, R187, R189, R202). The model's own there: bits 8 to 14 of a KNOB report's
aux and bits 9 to 15 of a TUNE_OSC report's two masks are 0 (log 38). -/
def Obligations.EmissionIntoAnArea : Prop :=
  (∀ (s : State) (n : AreaId) (c : Chosen), s.choose n = some c ↔
    match c with
    | .fault f => s.rpu.faultArea = some n ∧ s.rpu.fault = some f
    | .osc o => (s.rpu.faultArea = some n → s.rpu.fault = none) ∧ s.rpu.tuneArea = some n ∧
        tget s.rpu.oscs o = true ∧ ∀ o' : OscId, o' < o → tget s.rpu.oscs o' = false
    | .knob i => (s.rpu.faultArea = some n → s.rpu.fault = none) ∧
        (s.rpu.tuneArea = some n → ∀ o : OscId, tget s.rpu.oscs o = false) ∧ s.rpu.panelArea = some n ∧
        tget s.rpu.knobs i = true ∧ ∀ i' : KnobId, i' < i → tget s.rpu.knobs i' = false
    | .switch j => (s.rpu.faultArea = some n → s.rpu.fault = none) ∧
        (s.rpu.tuneArea = some n → ∀ o : OscId, tget s.rpu.oscs o = false) ∧ s.rpu.panelArea = some n ∧
        (∀ i : KnobId, tget s.rpu.knobs i = false) ∧
        tget s.rpu.switches j = true ∧ ∀ j' : SwitchId, j' < j → tget s.rpu.switches j' = false) ∧
  (∀ (s : State) (n : AreaId) (a : Area), s.memoryOk → s.areaOf n .report = some a → 2 ≤ a.count → a.pos < a.count →
    a.cellAddr a.count ≤ Config.memSize →
    (s.choose n = none → ∃ t, exec (.roomEvent n none) s = .next t ∧ t = { s with mem := t.mem } ∧
      t.peek (a.cellAddr a.pos) = markEmpty ∧ sameMemoryBut (· = a.cellAddr a.pos) s t) ∧
    ∀ f, s.rpu.faultArea = some n → s.rpu.fault = some f → s.peek (a.cellAddr a.nextPos) ≠ markEmpty →
      ∃ t, exec (.roomEvent n none) s = .next t ∧
        readsAs t (a.cellAddr a.pos) (markFull :: 0x06 :: (leBytes 2 f.index ++ leBytes 2 f.value ++ leBytes 2 f.aux)) ∧
        sameMemoryBut (inCell (a.cellAddr a.pos) 8) s t ∧ t.mpa.summary.getLsbD n.val = true ∧
        t.active n = some { a with pos := a.nextPos } ∧ t.rpu = { s.rpu with fault := none }) ∧
  (∀ (s : State) (n : AreaId) (a : Area) (c : Chosen), s.memoryOk → s.areaOf n .report = some a → 2 ≤ a.count →
    a.pos < a.count → a.cellAddr a.count ≤ Config.memSize → s.choose n = some c →
    s.peek (a.cellAddr a.nextPos) ≠ markEmpty →
    ∃ t, exec (.roomEvent n none) s = .next t ∧
      readsAs t (a.cellAddr a.pos) (markFull :: s.reportContent c) ∧
      sameMemoryBut (inCell (a.cellAddr a.pos) 8) s t ∧ t.mpa.summary.getLsbD n.val = true ∧
      t.active n = some { a with pos := a.nextPos } ∧ t.rpu = s.rpu.without c ∧
      sameVoicesAndStore s { t with rpu := s.rpu } ∧ t.prb = s.prb ∧ t.psc = s.psc ∧ t.flash = s.flash)

/-! ### Notes -/

/-- A note cell with a bad kind, a bad part or a bad key — a key in KEY_ON and KEY_OFF alone, and the part before the
key — changes no voice, list, pedal or bend, and makes a NOTE_FAULT with its cell number, directory entry, reason and
source byte: written into a FAULT area with room, waiting in the one fault slot, if that is empty, without room (R30,
R187, R188). -/
def Obligations.NoteFaultHasNoEffect : Prop :=
  (∀ (s : State) (n : AreaId) (a : Area) (part key velocity source : Byte) (c : Instr) (reason : Nat),
    s.areaOf n .note = some a → c = .keyOn n part key velocity source ∨ c = .keyOff n part key source →
    (2 < part.toNat ∧ reason = 2) ∨ (part.toNat ≤ 2 ∧ 127 < key.toNat ∧ reason = 3) →
    ∃ t, exec c s = .next t ∧ noteFaulted s t n a source reason) ∧
  (∀ (s : State) (n : AreaId) (a : Area) (part velocity source : Byte) (value : BitVec 16) (c : Instr),
    s.areaOf n .note = some a →
    c = .bend n part value source ∨ c = .pedal n part velocity source ∨ c = .allOff n part source → 2 < part.toNat →
    ∃ t, exec c s = .next t ∧ noteFaulted s t n a source 2) ∧
  ∀ (s : State) (n : AreaId) (a : Area) (at' : Nat) (other : Option Byte), s.memoryOk → s.noteAt n at' →
    s.areaOf n .note = some a → (other.getD (s.peek (at' + 1)) = 0 ∨ 5 < (other.getD (s.peek (at' + 1))).toNat) →
    ∃ t, exec (.arrival n other) s = .next t ∧ noteFaulted s t n a (s.peek (at' + 7)) 1

/-- A KEY_ON moves or adds its key at the tail of the held-key list of each part it reaches, a full list losing its
oldest entry; the other lists, the pedals, the bends and the configuration stay (R31, R32, R35). A KEY_OFF, or a KEY_ON
of velocity 0, takes its key out of those lists, keeping the order of the rest (R31, R36). A part code of 1 or 2 reaches
its part, and code 0 the parts that the keyboard mode and the split key name (R32). A MONO or UNISON part sounds the
priority key of its list (R19): without a busy voice it starts on it, a MONO part on its lowest FREE voice, a UNISON part
on as many of its FREE voices as its count, ascending (R20, R22); with busy voices, another priority key, or a KEY_ON of
the sounding one, changes the key of all of them by the retrigger setting, and nothing else changes a voice (R19, R21,
R23); when the list empties, each of them is released, and keeps its unison index (R11, R19, R23). -/
def Obligations.KeysOfTheHeldList : Prop :=
  (∀ (s : State) (n : AreaId) (code key velocity source : Byte) (k : Key), s.areaOf n .note ≠ none →
    key.toNat = k.val → 0 < velocity.toNat → code.toNat ≤ 2 →
    ∃ t e, exec (.keyOn n code key velocity source) s = .next t ∧ e.key = k ∧
      e.velocity.val = min velocity.toNat 127 ∧
      (∀ p : Part, s.keyReaches code k p →
        ((∃ x ∈ s.held p, x.key = k) → t.held p = (s.held p).filter (fun x => x.key != k) ++ [e]) ∧
        ((∀ x ∈ s.held p, x.key ≠ k) → (s.held p).length < 16 → t.held p = s.held p ++ [e]) ∧
        ((∀ x ∈ s.held p, x.key ≠ k) → 16 ≤ (s.held p).length → t.held p = (s.held p).tail ++ [e])) ∧
      (∀ p : Part, ¬ s.keyReaches code k p → t.held p = s.held p) ∧ t.nrt.pedal = s.nrt.pedal ∧
      t.nrt.bend = s.nrt.bend ∧ t.nrt.mode = s.nrt.mode ∧ t.nrt.split = s.nrt.split ∧ t.nrt.map = s.nrt.map) ∧
  (∀ (s : State) (n : AreaId) (code key source : Byte) (k : Key) (c : Instr), s.areaOf n .note ≠ none →
    key.toNat = k.val → code.toNat ≤ 2 → c = .keyOff n code key source ∨ c = .keyOn n code key 0 source →
    ∃ t, exec c s = .next t ∧
      (∀ p : Part, s.keyReaches code k p → t.held p = (s.held p).filter (fun x => x.key != k)) ∧
      (∀ p : Part, ¬ s.keyReaches code k p → t.held p = s.held p) ∧ t.nrt.pedal = s.nrt.pedal ∧
      t.nrt.bend = s.nrt.bend ∧ t.nrt.mode = s.nrt.mode ∧ t.nrt.split = s.nrt.split ∧ t.nrt.map = s.nrt.map) ∧
  (∀ (s : State) (n : AreaId) (p : Part) (key velocity source : Byte) (k : Key) (vs : List VoiceId),
    s.listsOk → s.areaOf n .note ≠ none → key.toNat = k.val → 0 < velocity.toNat → (s.voicing p).mode ≠ .poly →
    s.busyOf p = [] →
    vs = (allVoices.filter fun v => (s.voice v).part = p && (s.voice v).state = .free).take
      (if (s.voicing p).mode = .mono then 1 else (s.voicing p).count) → vs ≠ [] →
    ∃ t e, exec (.keyOn n p.code key velocity source) s = .next t ∧
      isPriority (s.voicing p).priority (t.held p) e ∧
      (∀ (i : Nat) (v : VoiceId), vs[i]? = some v →
        (t.voice v).state = .pending ∧ (t.voice v).key = some e.key ∧ (t.voice v).velocity = e.velocity ∧
          (t.voice v).unison.val = i ∧ (t.voice v).onset = s.val.onset + BitVec.ofNat 32 (i + 1) ∧
          (t.voice v).glideActive = decide ((s.voicing p).glide = .always)) ∧
      (∀ v : VoiceId, v ∉ vs → t.voice v = s.voice v) ∧ t.val.busy = s.val.busy ++ vs ∧ t.val.tune = s.val.tune ∧
      (t.val.group.get p).val = (if (s.voicing p).mode = .unison then vs.length else (s.val.group.get p).val) ∧
      ∀ q : Part, q ≠ p → t.val.group.get q = s.val.group.get q) ∧
  (∀ (s : State) (n : AreaId) (p : Part) (key velocity source : Byte) (k : Key) (c : Instr) (v : VoiceId)
      (rest : List VoiceId),
    s.listsOk → s.areaOf n .note ≠ none → key.toNat = k.val → (s.voicing p).mode ≠ .poly → s.busyOf p = v :: rest →
    (c = .keyOn n p.code key velocity source ∧ 0 < velocity.toNat) ∨
      (c = .keyOff n p.code key source ∧ ∃ x ∈ s.held p, x.key ≠ k) →
    ∃ t e, exec c s = .next t ∧ isPriority (s.voicing p).priority (t.held p) e ∧
      let changes : Prop := (s.voice v).key ≠ some e.key ∨ (e.key = k ∧ c = .keyOn n p.code key velocity source)
      (¬ changes → t.val = s.val ∧ t.rfe = s.rfe) ∧
      (∀ w : VoiceId, w ∉ s.busyOf p → t.voice w = s.voice w) ∧ t.val.free = s.val.free ∧ t.val.tune = s.val.tune ∧
      t.val.group = s.val.group ∧
      (changes → ∀ w ∈ s.busyOf p,
        (t.voice w).key = some e.key ∧ (t.voice w).velocity = e.velocity ∧ (t.voice w).unison = (s.voice w).unison ∧
        (t.voice w).offDeferred = false ∧ (t.voice w).glideActive = decide ((s.voicing p).glide ≠ .off) ∧
        ((t.voice w).c.val : Int) =
          (if (s.voicing p).glide = .off then s.targetFor p e.key else ((s.voice w).c.val : Int)) ∧
        ((s.voicing p).retrigger = .single →
          (t.voice w).state = (if (s.voice w).state = .sustained then .on else (s.voice w).state) ∧
          (t.voice w).onset = (s.voice w).onset ∧ (t.voice w).gapRunning = (s.voice w).gapRunning ∧
          (t.voice w).holdRunning = (s.voice w).holdRunning ∧ (t.voice w).aWritten = (s.voice w).aWritten ∧
          (t.voice w).bWritten = (s.voice w).bWritten ∧ t.val.busy = s.val.busy ∧ t.val.onset = s.val.onset) ∧
        ((s.voicing p).retrigger = .multi →
          (t.voice w).state = .pending ∧ (t.voice w).aWritten = false ∧ (t.voice w).bWritten = false ∧
          (t.voice w).onset ≠ s.val.onset ∧
          (s.gatePin w = true → (t.voice w).gapRunning = decide (s.mpa.setup.gateGap ≠ 0) ∧
            (t.voice w).holdRunning = false) ∧
          t.val.busy = s.val.busy.filter (fun x => (s.voice x).part != p) ++
            allVoices.filter (fun x => (s.voice x).part = p && (s.voice x).state.busy)))) ∧
  (∀ (s : State) (n : AreaId) (p : Part) (key source : Byte) (k : Key), s.listsOk → s.areaOf n .note ≠ none →
    key.toNat = k.val → (s.voicing p).mode ≠ .poly → (∀ x ∈ s.held p, x.key = k) → s.tun.job = none →
    ∃ t, exec (.keyOff n p.code key source) s = .next t ∧ t.held p = [] ∧
      (∀ w : VoiceId, t.voice w =
        if w ∈ s.busyOf p then (s.voice w).afterRelease (s.nrt.pedal.get p) else s.voice w) ∧
      (s.busyOf p ≠ [] → t.busyOf p = [] → t.val.group.get p = 0) ∧
      t.val.onset = s.val.onset ∧ t.rfe = s.rfe ∧ t.rpu = s.rpu)

/-- A KEY_ON for a POLY part that sounds no such key assigns it to the part's oldest FREE voice: PENDING, with a new
onset at the tail of the busy list, its flags cleared, its glide decided, its three channels pushed in order; no
other voice changes (R5, R6, R15). With no FREE voice, no yield and steal OLDEST, the key-on takes the part's oldest
busy voice, which becomes PENDING on the new key with its gate low; a gap starts where the gate was open (R5, R16);
into an area with room goes a STOLEN report of the voice, the new key and the old one, and into one without room none
(R16, R187, R188, R202); with steal NONE, or no busy voice, no voice changes (R16). A KEY_ON of a key that sounds takes
its voice again (R15). With no FREE voice under a background job the part's lowest TUNING voice is yielded: it goes
straight to the key, its overrides go, its measurement is abandoned and its oscillator returns to the front of its
card's list with the anchors from the one in progress on (R27, R90). A KEY_OFF releases the voice of its key as R11 has
it (R11, R17); a voice that it frees in a part with restore goes to the newest voiceless key, with a RESTORED report
(R13, R18, R187, R202). -/
def Obligations.PolyKeyOnAllocates : Prop :=
  (∀ (s : State) (n : AreaId) (p : Part) (key velocity source : Byte) (k : Key) (v : VoiceId) (rest : List VoiceId),
    s.listsOk → s.timersOk → s.areaOf n .note ≠ none → key.toNat = k.val → 0 < velocity.toNat →
    (s.voicing p).mode = .poly → (∀ w ∈ s.busyOf p, (s.voice w).key ≠ some k) → s.freeOf p = v :: rest →
    ∃ t, exec (.keyOn n p.code key velocity source) s = .next t ∧
      (t.voice v).state = .pending ∧ (t.voice v).key = some k ∧ (t.voice v).velocity.val = min velocity.toNat 127 ∧
      (t.voice v).onset = s.val.onset + 1 ∧ (t.voice v).unison = 0 ∧ (t.voice v).aWritten = false ∧
      (t.voice v).bWritten = false ∧ (t.voice v).offDeferred = false ∧ (t.voice v).gapRunning = false ∧
      (t.voice v).part = p ∧
      ((s.voicing p).glide = .always → (t.voice v).glideActive = true ∧ (t.voice v).c = (s.voice v).c) ∧
      ((s.voicing p).glide ≠ .always → (t.voice v).glideActive = false ∧
        ((t.voice v).c.val : Int) = clampInt 0 32767 (((k.val : Int) + (s.voicing p).transpose) * 256)) ∧
      (∀ w : VoiceId, w ≠ v → t.voice w = s.voice w) ∧ t.val.onset = s.val.onset + 1 ∧
      t.val.busy = s.val.busy ++ [v] ∧ t.val.free = s.val.free.erase v ∧ t.val.tune = s.val.tune ∧
      t.rfe = (((s.push (chanOf v 0)).push (chanOf v 1)).push (chanOf v 2)).rfe ∧
      t.tun = s.tun ∧ t.prb = s.prb ∧ t.psc = s.psc ∧ t.pst = s.pst ∧ t.rqu = s.rqu) ∧
  (∀ (s : State) (n : AreaId) (p : Part) (key velocity source : Byte) (k : Key) (v : VoiceId) (rest : List VoiceId),
    s.listsOk → s.areaOf n .note ≠ none → key.toNat = k.val → 0 < velocity.toNat → (s.voicing p).mode = .poly →
    (s.voicing p).steal = .oldest → (∀ w ∈ s.busyOf p, (s.voice w).key ≠ some k) → s.freeOf p = [] →
    s.background = false → s.busyOf p = v :: rest →
    ∃ t, exec (.keyOn n p.code key velocity source) s = .next t ∧ (t.voice v).state = .pending ∧
      (t.voice v).key = some k ∧ (t.voice v).onset = s.val.onset + 1 ∧ t.gatePin v = false ∧
      (s.gatePin v = true → (t.voice v).gapRunning = decide (s.mpa.setup.gateGap ≠ 0) ∧
        (t.voice v).holdRunning = false) ∧
      (∀ w : VoiceId, w ≠ v → t.voice w = s.voice w) ∧ t.val.busy = s.val.busy.erase v ++ [v] ∧
      t.val.free = s.val.free ∧ t.val.tune = s.val.tune ∧
      ∀ (at' : Nat) (m : AreaId) (old : Key), s.memoryOk → s.noteAt n at' → s.rpu.voiceArea = some m →
        (s.voice v).key = some old →
        (∀ x, s.reportOpen m x → (∀ b, inCell x 8 b → ¬ inCell at' 8 b) →
          readsAs t x (markFull :: 0x04 :: (leBytes 2 v.val ++ leBytes 2 k.val ++ leBytes 2 old.val)) ∧
            t.mpa.summary.getLsbD m.val = true ∧ t.rpu = s.rpu) ∧
        (s.reportFull m → (∀ b, s.areaOf m .report = some b → ¬ inCell at' 8 (b.cellAddr b.pos)) →
          t.rpu = s.rpu ∧ t.active m = s.active m)) ∧
  (∀ (s : State) (n : AreaId) (p : Part) (key velocity source : Byte) (k : Key),
    s.areaOf n .note ≠ none → key.toNat = k.val → 0 < velocity.toNat → (s.voicing p).mode = .poly →
    (∀ w ∈ s.busyOf p, (s.voice w).key ≠ some k) → s.freeOf p = [] → s.background = false →
    (s.voicing p).steal = .none ∨ s.busyOf p = [] →
    ∃ t, exec (.keyOn n p.code key velocity source) s = .next t ∧ t.val = s.val ∧ t.rfe = s.rfe ∧ t.tun = s.tun ∧
      t.rpu = s.rpu) ∧
  (∀ (s : State) (n : AreaId) (p : Part) (key velocity source : Byte) (k : Key) (v : VoiceId),
    s.listsOk → s.areaOf n .note ≠ none → key.toNat = k.val → 0 < velocity.toNat → (s.voicing p).mode = .poly →
    v ∈ s.busyOf p → (s.voice v).key = some k → (∀ w ∈ s.busyOf p, (s.voice w).key = some k → w = v) →
    ∃ t, exec (.keyOn n p.code key velocity source) s = .next t ∧ (t.voice v).state = .pending ∧
      (t.voice v).key = some k ∧ (t.voice v).velocity.val = min velocity.toNat 127 ∧
      (t.voice v).onset = s.val.onset + 1 ∧ (t.voice v).offDeferred = false ∧ t.gatePin v = false ∧
      (s.gatePin v = true → (t.voice v).gapRunning = decide (s.mpa.setup.gateGap ≠ 0) ∧
        (t.voice v).holdRunning = false) ∧
      (∀ w : VoiceId, w ≠ v → t.voice w = s.voice w) ∧ t.val.busy = s.val.busy.erase v ++ [v] ∧
      t.val.free = s.val.free ∧ t.val.tune = s.val.tune ∧ t.rpu = s.rpu ∧
      t.rfe = (((s.push (chanOf v 0)).push (chanOf v 1)).push (chanOf v 2)).rfe) ∧
  (∀ (s : State) (n : AreaId) (p : Part) (key velocity source : Byte) (k : Key) (v : VoiceId) (o : OscId)
      (j : TuneJob),
    s.listsOk → s.areaOf n .note ≠ none → key.toNat = k.val → 0 < velocity.toNat → (s.voicing p).mode = .poly →
    (∀ w ∈ s.busyOf p, (s.voice w).key ≠ some k) → s.freeOf p = [] → s.yields p v → s.tun.job = some j →
    (s.chan (voiceCard v)).osc = some o → (s.chan (voiceCard v)).voice = some v →
    oscVoice o = v → (∀ x ∈ tget j.lists (voiceCard v), (s.voice (oscVoice x.osc)).state ≠ .free) →
    let m := s.chan (voiceCard v)
    ∃ t, exec (.keyOn n p.code key velocity source) s = .next t ∧ (t.voice v).state = .pending ∧
      (t.voice v).key = some k ∧ (t.voice v).onset = s.val.onset + 1 ∧ (t.voice v).unison = 0 ∧
      (∀ w : VoiceId, w ≠ v → t.voice w = s.voice w) ∧ t.val.tune = s.val.tune.erase v ∧
      t.val.busy = s.val.busy ++ [v] ∧ t.val.free = s.val.free ∧
      tget t.rfe.overrides (oscA v) = none ∧ tget t.rfe.overrides (oscB v) = none ∧
      (∀ o' : OscId, oscVoice o' ≠ v → tget t.rfe.overrides o' = tget s.rfe.overrides o') ∧
      t.chan (voiceCard v) = { m with state := .idle, osc := none, voice := none, rest := [], periods := none } ∧
      (∀ c : CardId, c ≠ voiceCard v → t.chan c = s.chan c) ∧
      t.tun.job =
        some { j with lists := tset j.lists (voiceCard v) (⟨o, m.anchor :: m.rest⟩ :: tget j.lists (voiceCard v)) } ∧
      t.tun.anchors = s.tun.anchors ∧ t.tun.trust = s.tun.trust ∧ t.tun.outcomes = s.tun.outcomes ∧ t.rpu = s.rpu) ∧
  (∀ (s : State) (n : AreaId) (p : Part) (key source : Byte) (k : Key), s.listsOk → s.areaOf n .note ≠ none →
    key.toNat = k.val → (s.voicing p).mode = .poly →
    ((∀ w ∈ s.busyOf p, (s.voice w).key ≠ some k) →
      ∃ t, exec (.keyOff n p.code key source) s = .next t ∧ t.val = s.val ∧ t.rfe = s.rfe ∧ t.tun = s.tun ∧
        t.rpu = s.rpu) ∧
    ∀ v : VoiceId, v ∈ s.busyOf p → (s.voice v).key = some k →
      (∀ w ∈ s.busyOf p, (s.voice w).key = some k → w = v) → s.tun.job = none →
      ((s.voicing p).restore = false →
        ∃ t, exec (.keyOff n p.code key source) s = .next t ∧
          t.voice v = (s.voice v).afterRelease (s.nrt.pedal.get p) ∧
          (∀ w : VoiceId, w ≠ v → t.voice w = s.voice w) ∧
          ((t.voice v).state ≠ .free → t.val.busy = s.val.busy ∧ t.val.free = s.val.free) ∧
          ((t.voice v).state = .free → t.val.busy = s.val.busy.erase v ∧ t.val.free = s.val.free ++ [v]) ∧
          t.rfe = s.rfe ∧ t.rpu = s.rpu) ∧
      ∀ e : HeldKey, (s.voicing p).restore = true → (s.voice v).state = .on → (s.voice v).holdRunning = false →
        s.nrt.pedal.get p = false → s.newestWithout p v ((s.held p).filter fun x => x.key != k) e →
        ∃ t, exec (.keyOff n p.code key source) s = .next t ∧ (t.voice v).state = .pending ∧
          (t.voice v).key = some e.key ∧ (t.voice v).velocity = e.velocity ∧
          (t.voice v).onset = s.val.onset + 1 ∧ (∀ w : VoiceId, w ≠ v → t.voice w = s.voice w) ∧
          t.val.busy = s.val.busy.erase v ++ [v] ∧ t.val.free = s.val.free ∧
          ∀ (at' x : Nat) (m : AreaId), s.memoryOk → s.noteAt n at' → s.rpu.voiceArea = some m →
            s.reportOpen m x → (∀ b, inCell x 8 b → ¬ inCell at' 8 b) →
            readsAs t x (markFull :: 0x05 :: (leBytes 2 v.val ++ leBytes 2 e.key.val ++ [0, 0])) ∧
              t.mpa.summary.getLsbD m.val = true)

/-- BEND sets the bend value of each part it reaches to the clamped value and nothing else but the cell and the
examine position (R31, R32, R38). -/
def Obligations.BendSetsTheBend : Prop :=
  ∀ (s : State) (n : AreaId) (at' : Nat) (part : Byte) (value : BitVec 16) (source : Byte),
    s.memoryOk → s.noteAt n at' → part.toNat ≤ 2 →
    ∃ t, exec (.bend n part value source) s = .next t ∧ advanced s t n ∧ t.peek at' = markEmpty ∧
      (∀ p : Part, t.nrt.bend.get p =
        if part = p.code ∨ (part = 0 ∧ (p = .A ∨ s.nrt.mode ≠ .single)) then clampInt (-8192) 8191 value.toInt
        else s.nrt.bend.get p) ∧
      t.nrt = { s.nrt with bend := t.nrt.bend } ∧ t.val = s.val ∧ t.rfe = s.rfe ∧ t.tun = s.tun ∧ t.prb = s.prb ∧
      t.psc = s.psc ∧ t.pst = s.pst ∧ t.rqu = s.rqu ∧ t.rpu = s.rpu ∧ t.flash = s.flash ∧
      sameMemoryBut (inCell at' 8) s t

/-- PEDAL sets the pedal of each part it reaches — by its part code, or for code 0 by the keyboard mode — and no other;
down changes no voice, and after up no voice of a part it reaches is SUSTAINED (R12, R32, R37). Up changes no busy voice
but the SUSTAINED ones of the parts it reaches; without a tune job, and where nothing waits for a voice — a POLY part
without restore, any other without a held key — it frees exactly these, in busy-list order and part A's first, and every
other voice keeps (R12, R13, R33). -/
def Obligations.PedalHoldsAndFrees : Prop :=
  ∀ (s : State) (n : AreaId) (code velocity source : Byte), s.listsOk → s.areaOf n .note ≠ none → code.toNat ≤ 2 →
    ∃ t, exec (.pedal n code velocity source) s = .next t ∧
      (∀ p : Part, s.partReaches code p → t.nrt.pedal.get p = (velocity != 0)) ∧
      (∀ p : Part, ¬ s.partReaches code p → t.nrt.pedal.get p = s.nrt.pedal.get p) ∧ t.nrt.held = s.nrt.held ∧
      t.nrt.bend = s.nrt.bend ∧ (velocity ≠ 0 → t.val = s.val ∧ t.rfe = s.rfe ∧ t.tun = s.tun) ∧
      (velocity = 0 → ∀ v : VoiceId, s.partReaches code (t.voice v).part → (t.voice v).state ≠ .sustained) ∧
      let frees (v : VoiceId) : Prop := s.partReaches code (s.voice v).part ∧ (s.voice v).state = .sustained
      let sustained (p : Part) : List VoiceId :=
        s.val.busy.filter fun v => (s.voice v).part = p && (s.voice v).state = .sustained
      (velocity = 0 → ∀ v : VoiceId, (s.voice v).state.busy = true → ¬ frees v → t.voice v = s.voice v) ∧
      (velocity = 0 → s.tun.job = none →
        (∀ p : Part, s.partReaches code p →
          if (s.voicing p).mode = .poly then (s.voicing p).restore = false else s.held p = []) →
        (∀ v : VoiceId, (frees v → t.voice v = (s.voice v).freed) ∧ (¬ frees v → t.voice v = s.voice v)) ∧
        t.val.busy.Sublist s.val.busy ∧ (∀ v : VoiceId, v ∈ t.val.busy ↔ v ∈ s.val.busy ∧ ¬ frees v) ∧
        (∀ p : Part, s.partReaches code p → (∀ q : Part, s.partReaches code q → q = p) →
          t.val.free = s.val.free ++ sustained p) ∧
        (s.partReaches code .A → s.partReaches code .B →
          t.val.free = s.val.free ++ sustained .A ++ sustained .B) ∧
        t.val.tune = s.val.tune ∧ t.rfe = s.rfe ∧ t.rpu = s.rpu)

/-- ALL_OFF empties the list of each part it reaches — by its part code, or for code 0 by the keyboard mode — puts its
pedal up and leaves it no busy voice and no group; without a tune job the voices of a part it does not reach and the
TUNING ones stay as they were, and no report is made (R14, R32, R39). Under a background job an IDLE channel takes the
first oscillator of its card's list whose voice is FREE then, if a voice of the card became FREE (R87). -/
def Obligations.AllOffSilencesThePart : Prop :=
  (∀ (s : State) (n : AreaId) (code source : Byte), s.listsOk → s.areaOf n .note ≠ none → code.toNat ≤ 2 →
    ∃ t, exec (.allOff n code source) s = .next t ∧
      (∀ p : Part, s.partReaches code p → t.held p = [] ∧ t.nrt.pedal.get p = false ∧ t.busyOf p = [] ∧
        t.val.group.get p = 0) ∧
      (∀ p : Part, ¬ s.partReaches code p → t.held p = s.held p ∧ t.nrt.pedal.get p = s.nrt.pedal.get p) ∧
      t.nrt.bend = s.nrt.bend ∧ t.prb = s.prb ∧ t.rpu = s.rpu ∧
      (∀ v : VoiceId, s.partReaches code (t.voice v).part → t.gatePin v = false) ∧
      (s.tun.job = none → ∀ v : VoiceId, ¬ s.partReaches code (s.voice v).part ∨ (s.voice v).state = .tuning →
        t.voice v = s.voice v)) ∧
  (∀ (s : State) (n : AreaId) (p : Part) (source : Byte) (c : CardId) (q : PendingOsc) (k : AnchorId)
      (ks : List AnchorId) (more less : List PendingOsc), s.listsOk → s.areaOf n .note ≠ none →
    s.background = true → (∀ (d : CardId), ∀ x ∈ s.pendingList d, oscCard x.osc = d) → (s.chan c).state = .idle →
    s.pendingList c = less ++ q :: more → q.anchors = k :: ks →
    let opens (v : VoiceId) : Prop := (s.voice v).state = .free ∨ ((s.voice v).part = p ∧ (s.voice v).state.busy = true)
    (∃ v : VoiceId, voiceCard v = c ∧ (s.voice v).part = p ∧ (s.voice v).state.busy = true) →
    opens (oscVoice q.osc) → (∀ x ∈ less, x.osc ≠ q.osc ∧ ¬ opens (oscVoice x.osc)) →
    ∃ t, exec (.allOff n p.code source) s = .next t ∧ (t.chan c).state = .setting ∧ (t.chan c).osc = some q.osc ∧
      (t.chan c).voice = some (oscVoice q.osc) ∧ (t.chan c).anchor = k ∧ (t.chan c).rest = ks ∧
      (t.voice (oscVoice q.osc)).state = .tuning ∧ t.pendingList c = less ++ more)

/-! ### Requests on parameters, knobs, switches and the keyboard -/

/-- SET_PARAM stores the clamped value and no other parameter, detaches exactly the CATCH knobs on it whose position is
another, rewrites its image entry, and answers OK (R98, R99, R120). A CATCH knob whose position equals the value stored becomes ATTACHED, as
R120 has it; R98's closing sentence has it DETACHED, and R120 is the model's choice (log 35). -/
def Obligations.SetParamWritesTheParameter : Prop :=
  ∀ (s : State) (n : AreaId) (at' : Nat) (id : Byte) (i : ParamId) (value : BitVec 16),
    s.memoryOk → s.requestAt n at' → id.toNat = i.val → (∀ b, s.inImage 0 352 b → ¬ inCell at' 32 b) →
    ∃ t, exec (.setParam n id value) s = .next t ∧ doneWith t n at' .ok ∧ advanced s t n ∧
      (tget t.prb.params i).val = min value.toNat 4095 ∧
      (∀ j : ParamId, j ≠ i → tget t.prb.params j = tget s.prb.params j) ∧ t.prb = { s.prb with params := t.prb.params } ∧
      (∀ w : KnobId,
        ((s.knob w).mode = .catchMode ∧ s.resolve (s.knob w).target = some i →
          (t.knob w).last = (s.knob w).last ∧ (t.knob w).mode = .catchMode ∧ (t.knob w).target = (s.knob w).target ∧
          ((t.knob w).detached = decide ((s.knob w).last ≠ tget t.prb.params i)) ∧
          ((s.knob w).last < tget t.prb.params i → (t.knob w).side = .below) ∧
          (tget t.prb.params i < (s.knob w).last → (t.knob w).side = .above)) ∧
        (¬ ((s.knob w).mode = .catchMode ∧ s.resolve (s.knob w).target = some i) → t.knob w = s.knob w)) ∧
      t.psc = { s.psc with knobs := t.psc.knobs } ∧ sameVoicesAndStore s t ∧ t.flash = s.flash ∧
      (∀ base, s.imageBase = some base → base + 352 ≤ Config.memSize → t.peekLe (base + 2 * i.val) 2 = min value.toNat 4095) ∧
      sameMemoryBut (fun a => inCell at' 32 a ∨ s.inImage (2 * i.val) 2 a ∨ s.inImage 208 96 a) s t

/-- SET_VOICING puts the conditioned block in force for its part alone; a change of mode or count silences the part
first, and an equal block changes no voice (R24, R100, R102). With mode and count kept, another priority has the
priority key of a MONO or UNISON part evaluated again: without a busy voice the part starts on it, a priority key other
than the sounding one changes the key of every busy voice, the same one none, and with no held key each busy voice is
released (R11, R19 to R24). Another transpose gives each busy voice of the part that does not glide its new target, and
no other voice (R49); it acts after the priority key (the model's order, log 10). -/
def Obligations.SetVoicingConditionsTheBlock : Prop :=
  ∀ (s : State) (n : AreaId) (at' : Nat) (p : Part) (b : Vector Byte 8), s.memoryOk → s.listsOk → s.requestAt n at' →
    ∃ t, exec (.setVoicing n p.code b) s = .next t ∧ doneWith t n at' .ok ∧ advanced s t n ∧
      t.voicing p =
        { mode := if b[0] = 1 then .mono else if b[0] = 2 then .unison else .poly
          count := max 2 (min b[1].toNat 12)
          priority := if b[2] = 1 then .low else if b[2] = 2 then .high else .last
          glide := if b[3] = 1 then .always else if b[3] = 2 then .legato else .off
          bendRange := min b[4].toNat 12
          transpose := max (-24) (min b[5].toInt 24)
          steal := if b[6].toNat % 128 = 1 then .none else .oldest
          restore := b[6].getLsbD 7
          retrigger := if b[7] = 1 then .single else .multi } ∧
      (∀ q : Part, q ≠ p → t.voicing q = s.voicing q) ∧ t.prb.params = s.prb.params ∧ t.prb.name = s.prb.name ∧
      t.prb.edit = s.prb.edit ∧ t.psc = s.psc ∧ t.nrt.bend = s.nrt.bend ∧
      ((t.voicing p).mode ≠ (s.voicing p).mode ∨ (t.voicing p).count ≠ (s.voicing p).count →
        t.held p = [] ∧ t.nrt.pedal.get p = false ∧ t.busyOf p = []) ∧
      (t.voicing p = s.voicing p → t.val = s.val ∧ t.nrt = s.nrt) ∧
      ((t.voicing p).mode = (s.voicing p).mode → (t.voicing p).count = (s.voicing p).count →
        let same : Prop := (t.voicing p).priority = (s.voicing p).priority ∨ (t.voicing p).mode = .poly
        let kept : Prop := (∀ v : VoiceId, s.retuned t p v) ∧ t.rfe = s.rfe ∧ t.val.busy = s.val.busy ∧
          t.val.free = s.val.free ∧ t.val.tune = s.val.tune ∧ t.val.onset = s.val.onset
        t.nrt = s.nrt ∧ (same → kept) ∧
        (¬ same → s.held p ≠ [] → ∃ e : HeldKey, isPriority (t.voicing p).priority (s.held p) e ∧
          (s.busyOf p = [] → s.started t p e) ∧
          ∀ (v : VoiceId) (rest : List VoiceId), s.busyOf p = v :: rest →
            ((s.voice v).key = some e.key → kept) ∧ ((s.voice v).key ≠ some e.key → s.keyChanged t p e)) ∧
        (¬ same → s.held p = [] → s.tun.job = none → (t.voicing p).transpose = (s.voicing p).transpose →
          ∀ v : VoiceId, t.voice v =
            if v ∈ s.busyOf p then (s.voice v).afterRelease (s.nrt.pedal.get p) else s.voice v))

/-- SET_KEYBOARD applies ALL_OFF to both parts, installs the clamped configuration and rewrites every voice's part from
it (R4, R41). -/
def Obligations.SetKeyboardRewritesOwnership : Prop :=
  ∀ (s : State) (n : AreaId) (at' : Nat) (mode split : Byte) (map : BitVec 16),
    s.memoryOk → s.listsOk → s.requestAt n at' →
    ∃ t, exec (.setKeyboard n mode split map) s = .next t ∧ doneWith t n at' .ok ∧ advanced s t n ∧
      t.nrt.mode = (if mode = 1 then .split else if mode = 2 then .layer else .single) ∧
      t.nrt.split.val = min split.toNat 127 ∧ (∀ v : VoiceId, t.nrt.map.getLsbD v.val = map.getLsbD v.val) ∧
      (∀ p : Part, t.held p = [] ∧ t.nrt.pedal.get p = false ∧ t.val.group.get p = 0) ∧ t.nrt.bend = s.nrt.bend ∧
      t.val.busy = [] ∧
      (∀ v : VoiceId, (t.voice v).part =
        if t.nrt.mode ≠ .single ∧ map.getLsbD v.val = true then .B else .A) ∧
      t.prb = s.prb ∧ t.psc = s.psc ∧ t.rpu = s.rpu ∧ t.tun.anchors = s.tun.anchors

/-- SELECT_EDIT sets the edit part and detaches exactly the edit-relative CATCH knobs against the parameters they then
address; no parameter is written (R97, R103, R120). -/
def Obligations.SelectEditDetaches : Prop :=
  ∀ (s : State) (n : AreaId) (at' : Nat) (p : Part), s.memoryOk → s.requestAt n at' →
    ∃ t, exec (.selectEdit n p.code) s = .next t ∧ doneWith t n at' .ok ∧ advanced s t n ∧
      t.prb = { s.prb with edit := p } ∧ sameVoicesAndStore s t ∧
      (∀ w : KnobId,
        (∀ i, (s.knob w).mode = .catchMode → (s.knob w).target = .editRelative i →
          t.knob w =
            { s.knob w with
              detached := decide ((s.knob w).last ≠ tget s.prb.params (partParam p i))
              side := if (s.knob w).last < tget s.prb.params (partParam p i) then .below
                else if tget s.prb.params (partParam p i) < (s.knob w).last then .above else (s.knob w).side }) ∧
        ((s.knob w).mode ≠ .catchMode ∨ (∀ i, (s.knob w).target ≠ .editRelative i) → t.knob w = s.knob w)) ∧
      sameMemoryBut (fun a => inCell at' 32 a ∨ s.inImage 208 96 a) s t

/-- MAP_KNOB replaces one knob's mode and target, attaches it or records its side against its new target, keeps its
position, and answers OK (R122). MAP_SWITCH replaces one switch's function and sets no pedal (R127). -/
def Obligations.MapsAreReplaced : Prop :=
  (∀ (s : State) (n : AreaId) (at' : Nat) (knob target mode : Byte) (w : KnobId) (x : Target),
    s.memoryOk → s.requestAt n at' → knob.toNat = w.val →
    (∃ id : ParamId, target.toNat = id.val ∧ x = .absolute id) ∨
      (∃ i : Fin 16, target.toNat = 64 + i.val ∧ x = .editRelative i) ∨ (target.toNat = 255 ∧ x = .none) →
    ∃ t, exec (.mapKnob n knob target mode) s = .next t ∧ doneWith t n at' .ok ∧ advanced s t n ∧
      (t.knob w).last = (s.knob w).last ∧ (t.knob w).target = x ∧
      (t.knob w).mode =
        (if mode = 1 then .direct else if mode = 2 then .catchMode else if mode = 3 then .relative else .none) ∧
      ((t.knob w).detached = true ↔ mode = 2 ∧ ∃ i, s.resolve x = some i ∧ (s.knob w).last ≠ tget s.prb.params i) ∧
      (∀ i, mode = 2 → s.resolve x = some i →
        ((s.knob w).last < tget s.prb.params i → (t.knob w).side = .below) ∧
        (tget s.prb.params i < (s.knob w).last → (t.knob w).side = .above)) ∧
      (∀ w' : KnobId, w' ≠ w → t.knob w' = s.knob w') ∧ t.prb = s.prb ∧ sameVoicesAndStore s t ∧
      t.psc = { s.psc with knobs := t.psc.knobs } ∧ t.flash = s.flash ∧
      sameMemoryBut (fun a => inCell at' 32 a ∨ s.inImage (208 + 2 * w.val) 2 a) s t) ∧
  (∀ (s : State) (n : AreaId) (at' : Nat) (switch func : Byte) (j : SwitchId),
    s.memoryOk → s.requestAt n at' → switch.toNat = j.val →
    ∃ t, exec (.mapSwitch n switch func) s = .next t ∧ doneWith t n at' .ok ∧ advanced s t n ∧
      tget t.psc.switches j =
        { tget s.psc.switches j with
          func := if func = 1 then .sustainA else if func = 2 then .sustainB
            else if func = 3 then .sustainBoth else .report } ∧
      (∀ j' : SwitchId, j' ≠ j → tget t.psc.switches j' = tget s.psc.switches j') ∧ t.psc.knobs = s.psc.knobs ∧
      t.psc = { s.psc with switches := t.psc.switches } ∧ t.prb = s.prb ∧ sameVoicesAndStore s t ∧
      t.flash = s.flash ∧ sameMemoryBut (inCell at' 32) s t)

/-- PART_EXPORT writes a part's sixteen values, conditioned voicing block and name as 56 bytes at the offset, and
nothing else but its own cell (R105, R106, R201). -/
def Obligations.PartExportWritesTheRange : Prop :=
  ∀ (s : State) (n : AreaId) (at' : Nat) (p : Part) (offset : BitVec 16), s.memoryOk → s.requestAt n at' →
    0x0080 ≤ offset.toNat → offset.toNat ≤ 0x1FC8 → offset.toNat + 56 ≤ at' ∨ at' + 32 ≤ offset.toNat →
    ∃ t, exec (.partExport n p.code offset) s = .next t ∧ doneWith t n at' .ok ∧ advanced s t n ∧
      (∀ i : Fin 16, t.peekLe (offset.toNat + 2 * i.val) 2 = s.param p i) ∧
      readsAs t (offset.toNat + 32) (s.voicing p).bytes ∧
      (∀ i : Fin 16, t.peek (offset.toNat + 40 + i.val) = tget (s.prb.name.get p) i) ∧
      t.prb = s.prb ∧ t.psc = s.psc ∧ sameVoicesAndStore s t ∧ t.flash = s.flash ∧
      sameMemoryBut (fun a => inCell at' 32 a ∨ inCell offset.toNat 56 a) s t

/-- PART_IMPORT of a range clear of its own cell loads the sixteen clamped values, the conditioned voicing and the name
into the part, and leaves the other part and the globals (R100, R104, R107). Every CATCH knob whose target resolves to one
of the part's sixteen parameters is detached against the loaded value, and no other knob changes (R104, R120; that a
position equal to the value attaches is the model's choice of R120 against R98's closing sentence, log 35). PART_IMPORT of a range that holds a part's
own export writes every parameter to its own value, keeps its voicing and name and changes no voice (R106, R107,
R201). -/
def Obligations.PartImportLoadsThePart : Prop :=
  (∀ (s : State) (n : AreaId) (at' : Nat) (p : Part) (offset : BitVec 16), s.memoryOk → s.requestAt n at' →
    0x0080 ≤ offset.toNat → offset.toNat ≤ 0x1FC8 → offset.toNat + 56 ≤ at' ∨ at' + 32 ≤ offset.toNat →
    ∃ t, exec (.partImport n p.code offset) s = .next t ∧ doneWith t n at' .ok ∧ advanced s t n ∧
      (∀ i : Fin 16, t.param p i = min (s.peekLe (offset.toNat + 2 * i.val) 2) 4095) ∧
      t.voicing p =
        { mode := if s.peek (offset.toNat + 32) = 1 then .mono else if s.peek (offset.toNat + 32) = 2 then .unison
            else .poly
          count := max 2 (min (s.peek (offset.toNat + 33)).toNat 12)
          priority := if s.peek (offset.toNat + 34) = 1 then .low else if s.peek (offset.toNat + 34) = 2 then .high
            else .last
          glide := if s.peek (offset.toNat + 35) = 1 then .always else if s.peek (offset.toNat + 35) = 2 then .legato
            else .off
          bendRange := min (s.peek (offset.toNat + 36)).toNat 12
          transpose := max (-24) (min (s.peek (offset.toNat + 37)).toInt 24)
          steal := if (s.peek (offset.toNat + 38)).toNat % 128 = 1 then .none else .oldest
          restore := (s.peek (offset.toNat + 38)).getLsbD 7
          retrigger := if s.peek (offset.toNat + 39) = 1 then .single else .multi } ∧
      (t.voicing p).ok ∧ (t.voicing p).count = max 2 (min (s.peek (offset.toNat + 33)).toNat 12) ∧
      (t.voicing p).transpose = max (-24) (min (s.peek (offset.toNat + 37)).toInt 24) ∧
      (∀ i : Fin 16, tget (t.prb.name.get p) i = s.peek (offset.toNat + 40 + i.val)) ∧
      (∀ q : Part, q ≠ p → t.voicing q = s.voicing q ∧ t.prb.name.get q = s.prb.name.get q ∧
        ∀ i : Fin 16, t.param q i = s.param q i) ∧ (∀ g : Fin 8, t.global g = s.global g) ∧ t.prb.edit = s.prb.edit ∧
      s.partDetached t p) ∧
  (∀ (s : State) (n : AreaId) (at' : Nat) (p : Part) (offset : BitVec 16), s.memoryOk → s.requestAt n at' →
    s.rangesOk → 0x0080 ≤ offset.toNat → offset.toNat ≤ 0x1FC8 →
    offset.toNat + 56 ≤ at' ∨ at' + 32 ≤ offset.toNat → readsAs s offset.toNat (s.exportBytes p) →
    ∃ t, exec (.partImport n p.code offset) s = .next t ∧ doneWith t n at' .ok ∧ advanced s t n ∧ t.prb = s.prb ∧
      t.val = s.val ∧ t.nrt = s.nrt ∧ t.rfe = s.rfe ∧ t.tun = s.tun ∧ t.pst = s.pst ∧ t.rqu = s.rqu)

/-- CLEAR_RANGE returns the sticky and dynamic masks as they stood and clears exactly the sticky flags it names (R55,
R198). -/
def Obligations.ClearRangeReturnsTheMasks : Prop :=
  ∀ (s : State) (n : AreaId) (at' : Nat) (mask : BitVec 24), s.memoryOk → s.requestAt n at' →
    ∃ t, exec (.clearRange n mask) s = .next t ∧ doneWith t n at' .ok ∧ advanced s t n ∧
      (∀ v : VoiceId,
        (t.peekLe (at' + 6) 3).testBit (2 * v.val) = (s.voice v).stickyA ∧
        (t.peekLe (at' + 6) 3).testBit (2 * v.val + 1) = (s.voice v).stickyB ∧
        (t.peekLe (at' + 9) 3).testBit (2 * v.val) = (s.voice v).dynA ∧
        (t.peekLe (at' + 9) 3).testBit (2 * v.val + 1) = (s.voice v).dynB ∧
        t.voice v =
          { s.voice v with stickyA := (s.voice v).stickyA && !mask.getLsbD (2 * v.val)
                           stickyB := (s.voice v).stickyB && !mask.getLsbD (2 * v.val + 1) }) ∧
      t.val = { s.val with voices := t.val.voices } ∧ t.nrt = s.nrt ∧ t.rfe = s.rfe ∧ t.tun = s.tun ∧ t.prb = s.prb ∧
      t.psc = s.psc ∧ t.pst = s.pst ∧ t.rqu = s.rqu ∧ t.rpu = s.rpu ∧
      sameMemoryBut (fun a => inCell at' 32 a ∨ s.inImage 112 96 a) s t

/-! ### Tuning -/

/-- A TUNE with masks is refused with BUSY while a job exists or a STORE_CAL or REVERT_CAL is queued; otherwise the job
is created from it and its cell is TAKEN, and a foreground job pulls every voice that owns a selected oscillator (R85,
R86, R177). Each IDLE channel of the job takes, in the foreground, the lowest selected oscillator of its card, and in the
background the lowest one whose voice is FREE, and starts its lowest selected anchor; no voice that is not FREE changes
for a background job (R79, R86, R87). -/
def Obligations.TuneIsAdmittedOrBusy : Prop :=
  ∀ (s : State) (n : AreaId) (at' : Nat) (oscs : BitVec 32) (anchors : BitVec 16) (mode background : Byte),
    s.memoryOk → s.listsOk → s.requestAt n at' → oscs.toNat % 2 ^ 24 ≠ 0 → anchors.toNat % 2 ^ 9 ≠ 0 →
    (s.tun.job.isSome = true ∨ (∃ e ∈ s.rqu.queue, e.req = .storeCal ∨ e.req = .revertCal) →
      ∃ t, exec (.tune n oscs anchors mode background) s = .next t ∧ onlyAnswered s t n at' .busy ∧
        t.tun.job = s.tun.job) ∧
    (s.tun.job = none → (∀ e ∈ s.rqu.queue, e.req ≠ .storeCal ∧ e.req ≠ .revertCal) →
      ∃ t j, exec (.tune n oscs anchors mode background) s = .next t ∧ t.tun.job = some j ∧ advanced s t n ∧
        t.peek at' = markTaken ∧ j.area = n ∧ (∀ a, s.active n = some a → j.cell = a.pos) ∧
        j.oscMask.toNat = oscs.toNat % 2 ^ 24 ∧ j.anchorMask.toNat = anchors.toNat % 2 ^ 9 ∧
        j.mode = (if mode = 1 then .touch else .full) ∧ j.background = (background != 0) ∧ j.accepted = 0 ∧
        j.failed = 0 ∧ j.skipped = 0 ∧ j.firstFailure = none ∧ t.tun.anchors = s.tun.anchors ∧
        t.tun.trust = s.tun.trust ∧ t.rqu = s.rqu ∧ t.pst = s.pst ∧
        (background = 0 → ∀ v : VoiceId, oscs.getLsbD (2 * v.val) = true ∨ oscs.getLsbD (2 * v.val + 1) = true →
          (t.voice v).state = .tuning ∧ t.gatePin v = false) ∧
        (background ≠ 0 → ∀ v : VoiceId, (s.voice v).state ≠ .free → t.voice v = s.voice v) ∧
        ∀ (c : CardId) (o : OscId) (k : AnchorId), (s.chan c).state = .idle → oscCard o = c →
          oscs.getLsbD o.val = true → (background = 0 ∨ (s.voice (oscVoice o)).state = .free) →
          (∀ o' : OscId, o' < o → oscCard o' = c → oscs.getLsbD o'.val = true →
            background ≠ 0 ∧ (s.voice (oscVoice o')).state ≠ .free) →
          anchors.getLsbD k.val = true → (∀ k' : AnchorId, k' < k → anchors.getLsbD k'.val = false) →
          (t.chan c).state = .setting ∧ (t.chan c).osc = some o ∧ (t.chan c).voice = some (oscVoice o) ∧
            (t.voice (oscVoice o)).state = .tuning ∧ (t.chan c).anchor = k ∧
            (t.chan c).step = (if mode = 1 then 64 else 512) ∧
            (t.chan c).code.val =
              (if mode = 1 then (tget (tget s.tun.anchors o) k).val else 12288 + 6144 * k.val) ∧
            (t.chan c).rest = (List.finRange 9).filter fun k' => decide (k < k') && anchors.getLsbD k'.val)

/-- TUNE_ABORT answers NONE without a job and changes nothing else; with one it deletes the job, idles every channel,
clears every override, leaves no voice TUNING, keeps every table and trust mask, and answers OK; the job's own cell,
where it lies apart from the abort's, is DONE with ABORTED, the counts and the first failure (R92, R176, R198). -/
def Obligations.TuneAbortEndsTheJob : Prop :=
  ∀ (s : State) (n : AreaId) (at' : Nat), s.memoryOk → s.listsOk → s.requestAt n at' →
    (s.tun.job = none → ∃ t, exec (.tuneAbort n) s = .next t ∧ onlyAnswered s t n at' .nothing) ∧
    (s.tun.job.isSome = true → ∃ t, exec (.tuneAbort n) s = .next t ∧ doneWith t n at' .ok ∧ advanced s t n ∧
      t.tun.job = none ∧ (∀ c : CardId, (t.chan c).state = .idle ∧ (t.chan c).osc = none) ∧
      (∀ o : OscId, tget t.rfe.overrides o = none) ∧ (∀ v : VoiceId, (t.voice v).state ≠ .tuning) ∧
      t.tun.anchors = s.tun.anchors ∧ t.tun.trust = s.tun.trust ∧ t.tun.outcomes = s.tun.outcomes ∧
      ∀ (j : TuneJob) (x : Nat), s.tun.job = some j → s.cellAt j.area j.cell = some x → x + 32 ≤ Config.memSize →
        (x + 32 ≤ at' ∨ at' + 32 ≤ x) →
        t.peek x = 0x3C ∧ t.peek (x + 3) = 0x22 ∧ t.mpa.summary.getLsbD j.area.val = true ∧
        t.peekLe (x + 6) 2 = j.accepted % 65536 ∧ t.peekLe (x + 8) 2 = j.failed % 65536 ∧
        t.peekLe (x + 10) 2 = j.skipped % 65536 ∧
        (j.firstFailure = none → t.peek (x + 12) = 0 ∧ t.peek (x + 13) = 0 ∧ t.peek (x + 14) = 0) ∧
        ∀ f, j.firstFailure = some f → (t.peek (x + 12)).toNat = f.osc.val ∧ (t.peek (x + 13)).toNat = f.anchor.val ∧
          t.peek (x + 14) = (match f.cause with | .outOfReach => 1 | .order => 2 | .noSignal => 3))

/-- At a channel-written event the SETTING channels whose pitch channel and expected stamp it carries enter SETTLING,
and every channel that is not IDLE stays otherwise as it was (R77). The settle expiry clears the counter of a SETTLING
channel and starts the wait for an edge; the first edge clears the counter again, and each later one before the last
adds a period (R78). -/
def Obligations.EdgesAreCounted : Prop :=
  (∀ (s : State) (k : Slot), s.rangesOk → s.rfe.slot = some k → k.strobing = true →
    ∃ t, exec .channelWritten s = .next t ∧ ∀ c : CardId,
      ((s.chan c).state = .setting → (∃ o, (s.chan c).osc = some o ∧ pitchChan o = k.chan) →
        k.stamp = some (s.chan c).expected → t.chan c = { s.chan c with state := .settling }) ∧
      ((s.chan c).state ≠ .idle →
        ((s.chan c).state = .setting → (∀ o, (s.chan c).osc = some o → pitchChan o ≠ k.chan) ∨
          k.stamp ≠ some (s.chan c).expected) →
        t.chan c = s.chan c)) ∧
  ∀ (s : State) (c : CardId) (clocks : Nat),
    ((s.chan c).state = .settling → exec (.settleExpiry c) s =
      .next (s.putChan c { s.chan c with state := .counting, periods := none, counter := 0 })) ∧
    ((s.chan c).state = .counting → (s.chan c).counter + clocks < 1048575 →
      ((s.chan c).periods = none → exec (.tinRisingEdge c clocks) s =
        .next (s.putChan c { s.chan c with periods := some 0, counter := 0 })) ∧
      ∀ p, (s.chan c).periods = some p → p + 1 < 2 ^ (s.chan c).anchor.val → exec (.tinRisingEdge c clocks) s =
        .next (s.putChan c { s.chan c with periods := some (p + 1), counter := (s.chan c).counter + clocks }))

/-- A completed search measurement with count M other than T moves the code by the step toward T, clamped, halves the
step and sets the new code as an override with a new stamp; no table, mask or voice changes (R76, R80). -/
def Obligations.SearchMovesTheCode : Prop :=
  ∀ (s : State) (c : CardId) (o : OscId) (clocks p : Nat), (s.chan c).state = .counting → (s.chan c).osc = some o →
    (s.chan c).periods = some p → 2 ^ (s.chan c).anchor.val ≤ p + 1 → (s.chan c).step ≠ 0 →
    0 < (s.chan c).counter + clocks → (s.chan c).counter + clocks < 1048575 →
    (s.chan c).counter + clocks ≠ s.mpa.setup.targetT →
    ∃ t, exec (.measurementCompletion c clocks) s = .next t ∧ (t.chan c).state = .setting ∧
      (t.chan c).osc = some o ∧ (t.chan c).anchor = (s.chan c).anchor ∧ (t.chan c).rest = (s.chan c).rest ∧
      (t.chan c).step = (s.chan c).step / 2 ∧
      (s.mpa.setup.targetT < (s.chan c).counter + clocks →
        (t.chan c).code.val = min ((s.chan c).code.val + (s.chan c).step) 65535) ∧
      ((s.chan c).counter + clocks < s.mpa.setup.targetT →
        (t.chan c).code.val = (s.chan c).code.val - (s.chan c).step) ∧
      t.rfe.stamp = s.rfe.stamp + 1 ∧ (t.chan c).expected = t.rfe.stamp ∧ (t.chan c).select.val = o.val % 6 ∧
      tget t.rfe.overrides o = some ⟨(t.chan c).code, t.rfe.stamp⟩ ∧
      (∀ o' : OscId, o' ≠ o → tget t.rfe.overrides o' = tget s.rfe.overrides o') ∧
      t.rfe.jump = (s.push (pitchChan o)).rfe.jump ∧ t.tun.anchors = s.tun.anchors ∧ t.tun.trust = s.tun.trust ∧
      t.tun.job = s.tun.job ∧ t.val = s.val ∧ t.prb = s.prb ∧ t.mem = s.mem

/-- A measurement that takes a code to acceptance — M equal to T in the search, or within the tolerance in the verify —
stores the code and sets the trust bit when the code lies strictly between its neighbours; otherwise, and for a verify
outside the tolerance, the code stays and the trust bit is cleared.  No other table or mask changes (R80, R81, R83,
R84).  The job counts the anchor, and with anchors left the channel starts the next one with the mode's start code
and step (R79, R83, R84, R88).  The last edge and the measurement's completion are one event (log 26). -/
def Obligations.AcceptanceOrFailure : Prop :=
  ∀ (s : State) (c : CardId) (o : OscId) (clocks p : Nat), (s.chan c).state = .counting → (s.chan c).osc = some o →
    (s.chan c).periods = some p → 2 ^ (s.chan c).anchor.val ≤ p + 1 → 0 < (s.chan c).counter + clocks →
    (s.chan c).counter + clocks < 1048575 →
    let m := s.chan c
    let count : Int := m.counter + clocks
    let target : Int := s.mpa.setup.targetT
    let close := (m.step ≠ 0 ∧ count = target) ∨ (m.step = 0 ∧ (count - target).natAbs ≤ s.mpa.setup.tolerance)
    let between := ∀ k : AnchorId, (k.val + 1 = m.anchor.val → tget (tget s.tun.anchors o) k < m.code) ∧
      (k.val = m.anchor.val + 1 → m.code < tget (tget s.tun.anchors o) k)
    (close ∨ m.step = 0) →
    ∃ t, exec (.measurementCompletion c clocks) s = .next t ∧ exec (.tinRisingEdge c clocks) s = .next t ∧
      (close ∧ between → t.tun.anchors = tset s.tun.anchors o (tset (tget s.tun.anchors o) m.anchor m.code) ∧
        tget t.tun.trust o = tget s.tun.trust o ||| BitVec.twoPow 9 m.anchor.val) ∧
      (¬ (close ∧ between) → t.tun.anchors = s.tun.anchors ∧
        tget t.tun.trust o = tget s.tun.trust o &&& ~~~(BitVec.twoPow 9 m.anchor.val)) ∧
      (∀ o' : OscId, o' ≠ o → tget t.tun.trust o' = tget s.tun.trust o') ∧ t.prb = s.prb ∧ t.pst = s.pst ∧
      ∀ (j : TuneJob) (k : AnchorId) (ks : List AnchorId), s.tun.job = some j → m.rest = k :: ks →
        (t.chan c).state = .setting ∧ (t.chan c).osc = some o ∧ (t.chan c).anchor = k ∧ (t.chan c).rest = ks ∧
        (t.chan c).step = (if j.mode = .touch then 64 else 512) ∧
        (t.chan c).code.val =
          (if j.mode = .touch then (tget (tget t.tun.anchors o) k).val else 12288 + 6144 * k.val) ∧
        t.val = s.val ∧ ∃ j', t.tun.job = some j' ∧ j'.lists = j.lists ∧ j'.skipped = j.skipped ∧
          (close ∧ between → j'.accepted = j.accepted + 1 ∧ j'.failed = j.failed ∧
            j'.firstFailure = j.firstFailure) ∧
          (¬ (close ∧ between) → j'.accepted = j.accepted ∧ j'.failed = j.failed + 1 ∧
            ∃ cause, j'.firstFailure = some (j.firstFailure.getD ⟨o, m.anchor, cause⟩) ∧
              (cause = if close then .order else .outOfReach))

/-- A measurement without a signal fails its anchor and finishes its oscillator: the codes stay, the trust bit goes, and
the oscillator's outcome is the job's masks with the anchor among the failed (R82, R84, R88, R89). However the last
anchor of an oscillator ends — without a signal, in a verify measurement, or in the search with a count of T — its
TUNE_OSC report falls due (R89), and its channel goes on with the voice's other oscillator where that is pending;
otherwise the voice goes back, FREE, and a foreground job's channel takes the next oscillator of its card, or stays IDLE
(R88). With nothing pending and every other channel IDLE the job completes: its cell is DONE with OK, or with PARTIAL
after a failure, and with its counts (R91, R198). -/
def Obligations.NoSignalFinishesTheOscillator : Prop :=
  (∀ (s : State) (c : CardId) (o : OscId) (j : TuneJob), (s.chan c).state = .counting → (s.chan c).osc = some o →
    s.tun.job = some j →
    ∃ t, exec (.noSignal c) s = .next t ∧ t.tun.anchors = s.tun.anchors ∧
      tget t.tun.trust o = tget s.tun.trust o &&& ~~~(BitVec.twoPow 9 (s.chan c).anchor.val) ∧
      (∀ o' : OscId, o' ≠ o → tget t.tun.trust o' = tget s.tun.trust o') ∧
      (tget t.tun.outcomes o).accepted = (tget j.masks o).accepted ∧
      (tget t.tun.outcomes o).failed = (tget j.masks o).failed ||| BitVec.twoPow 9 (s.chan c).anchor.val ∧
      (∀ o' : OscId, o' ≠ o → tget t.tun.outcomes o' = tget s.tun.outcomes o') ∧ t.prb = s.prb ∧ t.pst = s.pst) ∧
  ∀ (s : State) (c : CardId) (o : OscId) (j : TuneJob) (e : Instr), s.memoryOk → s.listsOk → s.rangesOk →
    s.tun.job = some j → s.endsOsc c o e → (s.voice (oscVoice o)).state = .tuning →
    let part := (s.voice (oscVoice o)).part
    let plain : Prop := (s.voicing part).mode = .poly ∧ (s.voicing part).restore = false
    let alone : Prop := ∀ x ∈ s.pendingList c, x.osc ≠ siblingOf o
    ∃ t, exec e s = .next t ∧
      (∀ m, s.rpu.tuneArea = some m → s.reportFull m → tget t.rpu.oscs o = true) ∧
      (∀ (k : AnchorId) (ks : List AnchorId) (less more : List PendingOsc),
        s.pendingList c = less ++ ⟨siblingOf o, k :: ks⟩ :: more → (∀ x ∈ less, x.osc ≠ siblingOf o) →
        (t.chan c).state = .setting ∧ (t.chan c).osc = some (siblingOf o) ∧ (t.chan c).anchor = k ∧
          (t.chan c).rest = ks ∧ t.voice (oscVoice o) = s.voice (oscVoice o) ∧ t.val = s.val ∧
          tget t.rfe.overrides o = none ∧ t.pendingList c = less ++ more) ∧
      (plain → j.background = false → alone →
        (t.voice (oscVoice o)).state = .free ∧ t.gatePin (oscVoice o) = false ∧
        t.val.free = s.val.free ++ [oscVoice o] ∧ t.val.tune = s.val.tune.erase (oscVoice o) ∧
        (∀ (q : PendingOsc) (k : AnchorId) (ks : List AnchorId) (more : List PendingOsc),
          s.pendingList c = q :: more → q.anchors = k :: ks →
          (t.chan c).state = .setting ∧ (t.chan c).osc = some q.osc ∧ (t.chan c).anchor = k ∧
            (t.chan c).rest = ks ∧ t.pendingList c = more) ∧
        (s.pendingList c = [] → (t.chan c).state = .idle ∧ (t.chan c).osc = none ∧ (t.chan c).voice = none ∧
          tget t.rfe.overrides (oscA (oscVoice o)) = none ∧ tget t.rfe.overrides (oscB (oscVoice o)) = none)) ∧
      ((∀ d : CardId, s.pendingList d = [] ∧ (d ≠ c → (s.chan d).state = .idle)) →
        t.tun.job = none ∧ (∀ d : CardId, (t.chan d).state = .idle) ∧
        ∀ x, s.cellAt j.area j.cell = some x → x + 32 ≤ Config.memSize →
          let taken : Bool := (tget t.tun.trust o).getLsbD (s.chan c).anchor.val
          t.peek x = 0x3C ∧ t.peek (x + 3) = (if j.failed = 0 ∧ taken = true then 0x00 else 0x01) ∧
          t.mpa.summary.getLsbD j.area.val = true ∧
          t.peekLe (x + 6) 2 = (j.accepted + taken.toNat) % 65536 ∧
          t.peekLe (x + 8) 2 = (j.failed + (!taken).toNat) % 65536 ∧
          t.peekLe (x + 10) 2 = (j.skipped + (s.chan c).rest.length) % 65536 ∧
          (j.firstFailure = none → taken = true →
            t.peek (x + 12) = 0 ∧ t.peek (x + 13) = 0 ∧ t.peek (x + 14) = 0) ∧
          (j.firstFailure = none → taken = false →
            (t.peek (x + 12)).toNat = o.val ∧ (t.peek (x + 13)).toNat = (s.chan c).anchor.val ∧
              (e = .noSignal c → t.peek (x + 14) = 3)))

/-! ### The store -/

/-- A store-class request is refused with BUSY when the queue holds four entries, and a STORE_CAL or REVERT_CAL also
while a tune job exists; behind an entry in service it joins the tail with its cell TAKEN and waits (R178). -/
def Obligations.StoreClassAdmission : Prop :=
  ∀ (s : State) (n : AreaId) (a : Area) (at' : Nat) (c : Instr) (req : StoreReq), s.memoryOk → s.requestAt n at' →
    s.active n = some a →
    ((∃ (slot : Byte) (k : SlotId) (part : Byte), slot.toNat = k.val ∧ 1 ≤ part.toNat ∧ part.toNat ≤ 3 ∧
        c = .recall n slot part ∧ req = .recall k part) ∨
      (∃ (p : Part) (slot : Byte) (k : SlotId) (flags : Byte), slot.toNat = k.val ∧ c = .store n p.code slot flags ∧
        req = .store p k (flags.getLsbD 0) (flags.getLsbD 1)) ∨
      (∃ (slot : Byte) (k : SlotId), slot.toNat = k.val ∧
        ((c = .eraseSlot n slot ∧ req = .eraseSlot k) ∨ (c = .slotInfo n slot ∧ req = .slotInfo k))) ∨
      (c = .storeCal n ∧ req = .storeCal) ∨ (c = .revertCal n ∧ req = .revertCal)) →
    ((4 ≤ s.rqu.queue.length ∨ ((req = .storeCal ∨ req = .revertCal) ∧ s.tun.job.isSome = true)) →
      ∃ t, exec c s = .next t ∧ onlyAnswered s t n at' .busy) ∧
    (s.rqu.queue ≠ [] → s.rqu.queue.length < 4 →
      ((req = .storeCal ∨ req = .revertCal) → s.tun.job = none) →
      ∃ t, exec c s = .next t ∧ advanced s t n ∧ t.peek at' = markTaken ∧
        t.rqu.queue = s.rqu.queue ++ [⟨req, n, a.pos⟩] ∧ t.pst = s.pst ∧ t.prb = s.prb ∧ t.val = s.val ∧
        t.rfe = s.rfe ∧ t.nrt = s.nrt ∧ t.tun = s.tun ∧ t.psc = s.psc ∧ t.rpu = s.rpu ∧
        t.flash = s.flash ∧ sameMemoryBut (inCell at' 32) s t)

/-- A store-class request that joins an empty queue with no flash step in progress enters service at once and takes its
first flash step: a RECALL or SLOT_INFO reads the record, a STORE or ERASE_SLOT whose record fits in the head programs
its OPEN byte, a STORE_CAL erases its target, a REVERT_CAL reads the next older page (R134, R139 to R147). A STORE whose
record does not fit, or that finds no head, switches heads with two ERASED pages or more: the head's FULL byte is
programmed, or, without a head, the least erased page is opened by its region byte. With one ERASED page it reclaims: the
oldest FULL page is erased, or, where it holds a current record, the head is closed or a new one opened first. With none
it erases the oldest FULL page without a current record (R134, R135). -/
def Obligations.ServiceTakesItsFirstStep : Prop :=
  ∀ (s : State) (n : AreaId) (at' : Nat) (slot : Byte) (k : SlotId), s.memoryOk → s.requestAt n at' →
    s.rqu.queue = [] → s.pst.step = none → slot.toNat = k.val →
    (∀ l part, s.lookup k = some l → 1 ≤ part.toNat → part.toNat ≤ 3 →
      (∃ t, exec (.recall n slot part) s = .next t ∧ t.peek at' = markTaken ∧ t.rqu.queue.length = 1 ∧
        t.pst.step = some (.read l.page l.off (4 * (s.flashByte l.page (l.off + 5)).toNat)) ∧ t.flash = s.flash) ∧
      ∃ t, exec (.slotInfo n slot) s = .next t ∧ t.peek at' = markTaken ∧ t.rqu.queue.length = 1 ∧
        t.pst.step = some (.read l.page l.off (4 * (s.flashByte l.page (l.off + 5)).toNat)) ∧ t.flash = s.flash) ∧
    (∀ (h : PageId) (p : Part) (flags : Byte), s.pst.readOnly = false → s.headPage = some h →
      (s.page h).writePos + 4 * (s.storeRecord p k (flags.getLsbD 0) (flags.getLsbD 1)).length ≤ 512 →
      ∃ t, exec (.store n p.code slot flags) s = .next t ∧ t.peek at' = markTaken ∧ t.rqu.queue.length = 1 ∧
        t.pst.step = some (.program h (s.page h).writePos 0x00
          (.recOpen (10 + 2 * (flags.getLsbD 1).toNat + 4 * (flags.getLsbD 0).toNat))) ∧ t.flash = s.flash) ∧
    (∀ (h : PageId) (l : Loc), s.pst.readOnly = false → s.lookup k = some l → s.headPage = some h →
      (s.page h).writePos + 8 ≤ 512 →
      ∃ t, exec (.eraseSlot n slot) s = .next t ∧ t.peek at' = markTaken ∧ t.rqu.queue.length = 1 ∧
        t.pst.step = some (.program h (s.page h).writePos 0x00 (.recOpen 2)) ∧ t.flash = s.flash) ∧
    (∀ (p : PageId) (rest : List PageId), s.tun.job = none → s.ringOrder = p :: rest → (s.page p).state ≠ .bad →
      s.pst.currentCal ≠ some p →
      ∃ t, exec (.storeCal n) s = .next t ∧ t.peek at' = markTaken ∧ t.rqu.queue.length = 1 ∧
        t.pst.step = some (.erase p (2 + s.mpa.setup.eraseCode)) ∧ t.flash = s.flash) ∧
    (∀ (p : Part) (flags : Byte), s.pst.readOnly = false →
      (∀ h, s.headPage = some h →
        512 < (s.page h).writePos + 4 * (10 + 2 * (flags.getLsbD 1).toNat + 4 * (flags.getLsbD 0).toNat)) →
      let erased := (List.finRange 64).filter fun q => decide (4 ≤ q.val) && (s.page q).state = .erased
      let full := (List.finRange 64).filter fun q => decide (4 ≤ q.val) && (s.page q).state = .full
      ∃ t, exec (.store n p.code slot flags) s = .next t ∧
        (2 ≤ erased.length →
          (∀ h, s.headPage = some h → t.pst.step = some (.program h 1 0x00 .full)) ∧
          ∀ q, s.headPage = none → s.leastErasedPage q → t.pst.step = some (.program q 2 0x50 (.header false))) ∧
        (erased.length = 1 → ∀ v, s.oldestFull full v →
          (s.noCurrent v → t.pst.step = some (.erase v (2 + s.mpa.setup.eraseCode))) ∧
          (¬ s.noCurrent v →
            (∀ h, s.headPage = some h → t.pst.step = some (.program h 1 0x00 .full)) ∧
            ∀ q, s.headPage = none → s.leastErasedPage q → t.pst.step = some (.program q 2 0x50 (.header false)))) ∧
        (erased = [] → ∀ v, s.oldestFull (full.filter fun q => !s.hasCurrent q) v →
          s.noCurrent v ∧ t.pst.step = some (.erase v (2 + s.mpa.setup.eraseCode)))) ∧
    ∀ (c p : PageId) (rest : List PageId), s.tun.job = none → s.pst.currentCal = some c → s.olderCal c = p :: rest →
      ∃ t, exec (.revertCal n) s = .next t ∧ t.peek at' = markTaken ∧ t.rqu.queue.length = 1 ∧
        t.pst.step = some (.read p 8 486) ∧ t.flash = s.flash

/-- The operations that end without a flash step end in the take that put them into an empty queue: an empty slot gives
EMPTY_SLOT, a read-only store STORE_FAULT, no current calibration NONE (R138, R141 to R143, R147, R178). So, by the
model's choice (log 24), does a STORE that no page can take: no ERASED page, a current record in every FULL one and no
room in a head gives STORE_FAULT (R135). -/
def Obligations.ServiceWithoutAStep : Prop :=
  ∀ (s : State) (n : AreaId) (at' : Nat) (slot : Byte) (k : SlotId) (c : Instr) (code : ResultCode), s.memoryOk →
    s.requestAt n at' → s.rqu.queue = [] → slot.toNat = k.val →
    ((s.lookup k = none ∧ code = .emptySlot ∧
        ((∃ part : Byte, 1 ≤ part.toNat ∧ part.toNat ≤ 3 ∧ c = .recall n slot part) ∨ c = .slotInfo n slot ∨
          (c = .eraseSlot n slot ∧ s.pst.readOnly = false))) ∨
      (s.pst.readOnly = true ∧ code = .storeFault ∧
        ((∃ (p : Part) (flags : Byte), c = .store n p.code slot flags) ∨ c = .eraseSlot n slot)) ∨
      (s.pst.currentCal = none ∧ s.tun.job = none ∧ code = .nothing ∧ c = .revertCal n) ∨
      (s.pst.readOnly = false ∧ s.pst.step = none ∧ code = .storeFault ∧
        (∃ (p : Part) (flags : Byte), c = .store n p.code slot flags) ∧
        (∀ q : PageId, 4 ≤ q.val → (s.page q).state ≠ .erased ∧ ((s.page q).state = .full → ¬ s.noCurrent q)) ∧
        ∀ h, s.headPage = some h → 512 < (s.page h).writePos + 40)) →
    ∃ t, exec c s = .next t ∧ doneWith t n at' code ∧ advanced s t n ∧ t.rqu.queue = [] ∧
      t.pst = { s.pst with service := none } ∧ t.flash = s.flash ∧ t.prb = s.prb ∧ t.val = s.val ∧
      (c = .slotInfo n slot → t.peek (at' + 6) = 0)

/-- STORE_STATUS answers OK with the store's counts and flags as they stand (R144, R198). -/
def Obligations.StoreStatusReportsTheStore : Prop :=
  ∀ (s : State) (n : AreaId) (at' : Nat), s.memoryOk → s.requestAt n at' →
    ∃ t, exec (.storeStatus n) s = .next t ∧ onlyAnswered s t n at' .ok ∧
      (t.peek (at' + 6)).toNat = ((List.finRange 64).filter fun p => decide (4 ≤ p.val) && (s.page p).state = .erased).length ∧
      (t.peek (at' + 7)).toNat = ((List.finRange 64).filter fun p => (s.page p).state = .bad).length ∧
      (t.peek (at' + 8)).toNat = ((List.finRange 200).filter fun k => (s.lookup k).isSome).length ∧
      ((∀ p : PageId, (s.page p).eraseCount < 2 ^ 24) →
        (∀ p : PageId, (s.page p).eraseCount ≤ t.peekLe (at' + 9) 3) ∧
        ∃ p : PageId, (s.page p).eraseCount = t.peekLe (at' + 9) 3) ∧
      (t.peek (at' + 12)).toNat = s.pst.readOnly.toNat ∧ (t.peek (at' + 13)).toNat = s.pst.currentCal.isSome.toNat ∧
      (∀ p, s.pst.currentCal = some p → t.peekLe (at' + 14) 2 = (s.page p).seq.toNat) ∧
      (s.pst.currentCal = none → t.peekLe (at' + 14) 2 = 0)

/-- The record of a STORE has a body and check that sum to 0 modulo 256, the length its flags call for, and gives back
the part's values, voicing and name as its flags say (R132, R140, R205). -/
def Obligations.StoredRecordsReadBack : Prop :=
  ∀ (s : State) (p : Part) (k : SlotId) (name voicing : Bool), (s.voicing p).ok →
    let r := s.storeRecord p k name voicing
    r.sumOk = true ∧ r.body.length + 8 = 4 * r.length ∧ lengthOfFlags r.flags = some r.length ∧ r.slotId = k ∧
      (∀ i : Fin 16, tget r.partData.params i = s.param p i) ∧
      r.partData.voicing = (if voicing then some (s.voicing p) else none) ∧
      r.partData.name = (if name then some (s.prb.name.get p) else none) ∧ r.destination 3 = p

/-- A program step's completion leaves in its byte what reads back and changes no other byte of flash; the store's next
step, if any, has begun (R130). A step that a RESTART left has its own effect on the page table, the index and the
calibration generation (log 23), a header cut short leaving its page with an incomplete header; no step follows it without
an operation, and one that waited for it begins there (R139, R151; its read-only test and its pages: log 22, log 24). The
next byte of a run follows a byte that took; behind a head's FULL byte placement is tried again, or in a reclaim the least
erased page is opened; RETIRED ends the operation with OK (R132 to R135).
A record becomes current in the event in which its SEALED byte reads back sealed, and with a bad read-back the index stays
(R133, R136). At the seal of a reclaim's copy the entry moves to the copy, and the next copy's read or the victim's erase
follows, no RETIRED byte; a copy that fits nowhere ends the operation with STORE_FAULT and the victim, a FULL
page, is not erased (R135; one whose OPEN or length byte failed, behind the head's FULL byte: log 18).
The last byte of a header makes a patch page the head, with write position 8, and a calibration page USED; a header byte
that reads back wrong leaves its page FULL or USED with an incomplete header; OPEN moves the write position past its
record, read back well or not; FULL makes its page FULL (R131, R134, R136).
After a first mismatch on a byte of a record, OPEN and length apart, the record is begun again at the write position,
where it fits; after one on OPEN or length the head's FULL byte follows; after one on a header the opening is tried again
by placement or, in a reclaim, by a new round, the victim being as it was (log 18); a STORE_CAL goes on to its next
candidate page (R136, R146). A second mismatch ends the operation with STORE_FAULT; on OPEN or length the page is FULL with
no further step (R136; log 18).
A head opened in a reclaim takes the first current record of the victim, or the victim is erased (R135). The seal of a
calibration record makes its page the current generation and ends the operation with OK; a bad one leaves the generation
(R146).
In the start-up scan the RETIRED byte of a superseded record gives the later one the entry and the walk goes on behind it;
the FULL byte of a page that cannot be walked ends its walk; that of a surplus head candidate is followed by the next
one's, and the last by the spare; the opening of a head by the spare; and a header that fails is followed by the next
opening, or, at the second mismatch, by the calibration step (R136, R149, R150). The model's own in these clauses: the
division of the scan's reads, 512 bytes of a page and 486 of a calibration page (log 7); the sequence that an opening takes
at its first step (log 19); the flag bits 3 to 7 that an offered record may hold (log 21); the victim of the spare and the
surplus candidates being FULL at once (log 25). -/
def Obligations.ProgramCompletion : Prop :=
  (∀ (s : State) (p : PageId) (off : Nat) (value actual : Byte) (role : ByteRole), s.memoryOk →
    s.pst.step = some (.program p off value role) → off < 512 →
    ∃ t, exec (.programCompletion actual) s = .next t ∧ t.flashByte p off = actual ∧
      ∀ (q : PageId) (i : Nat), i < 512 → q ≠ p ∨ i ≠ off → t.flashByte q i = s.flashByte q i) ∧
  (∀ (s : State) (p : PageId) (off : Nat) (value actual : Byte) (role : ByteRole),
    s.pst.step = some (.program p off value role) → s.leftStep →
    ∃ t, exec (.programCompletion actual) s = .next t ∧ s.leftoverDone t ∧
      (role = .header true → actual = value → (t.page p).state = (if 4 ≤ p.val then .head else .used) ∧
        (t.page p).writePos = 8 ∧ (t.page p).headerOk = true) ∧
      (role = .header false ∨ (role = .header true ∧ actual ≠ value) →
        (t.page p).state = (if 4 ≤ p.val then .full else .used) ∧ (t.page p).headerOk = false) ∧
      (∀ units, role = .recOpen units → (t.page p).writePos = (s.page p).writePos + 4 * units) ∧
      (role = .full → (t.page p).state = .full) ∧
      (∀ k base, role = .recSealed k base → actual = value → tget t.pst.index k = some ⟨p, base⟩) ∧
      (role = .calSealed → actual = value → t.pst.currentCal = some p)) ∧
  (∀ (s : State) (p : PageId) (off : Nat) (value actual : Byte) (role : ByteRole) (svc : Service) (r : PatchRec),
    s.pst.step = some (.program p off value role) → s.pst.service = some svc → svc.op = .write r →
    ∃ t, exec (.programCompletion actual) s = .next t ∧
      (∀ b more, svc.phase = .record false (b :: more) ∨ svc.phase = .record true (b :: more) ∨
        svc.phase = .opening p (b :: more) → actual = value → t.pst.step = some (.program p b.off b.value b.role)) ∧
      (role = .full → svc.phase = .markFull false → (svc.victim = none → t.placed r) ∧
        (svc.victim ≠ none → ∀ q, t.leastErasedPage q → t.pst.step = some (.program q 2 0x50 (.header false)))) ∧
      (role = .full → svc.phase = .markFull true → s.endedWith t .storeFault) ∧
      (role = .retired → svc.phase = .retiring → s.endedWith t .ok)) ∧
  (∀ (s : State) (p : PageId) (off base : Nat) (k : SlotId) (svc : Service),
    s.pst.step = some (.program p off 0x00 (.recSealed k base)) → s.pst.service = some svc →
    svc.phase = .record false [] → svc.victim = none → (∃ r, svc.op = .write r) →
    (∃ t, exec (.programCompletion 0x00) s = .next t ∧ tget t.pst.index k = some ⟨p, base⟩ ∧
      (∀ k' : SlotId, k' ≠ k → tget t.pst.index k' = tget s.pst.index k') ∧
      (∀ l, tget s.pst.index k = some l → t.pst.step = some (.program l.page (l.off + 2) 0x00 .retired)) ∧
      (tget s.pst.index k = none → s.endedWith t .ok)) ∧
    ∀ actual : Byte, actual ≠ 0x00 → ∃ t, exec (.programCompletion actual) s = .next t ∧ t.pst.index = s.pst.index) ∧
  (∀ (s : State) (p v : PageId) (off base : Nat) (k : SlotId) (actual : Byte) (svc : Service),
    s.pst.step = some (.program p off 0x00 (.recSealed k base)) → s.pst.service = some svc →
    svc.phase = .record true [] → svc.victim = some v →
    ∃ t, exec (.programCompletion actual) s = .next t ∧
      (actual = 0x00 → tget t.pst.index k = some ⟨p, base⟩ ∧
        ∀ k' : SlotId, k' ≠ k → tget t.pst.index k' = tget s.pst.index k') ∧
      (actual ≠ 0x00 → t.pst.index = s.pst.index) ∧
      (actual = 0x00 ∨ svc.mismatches = 0 → t.copiesOn v) ∧
      ∀ r, svc.op = .write r → (actual = 0x00 ∨ svc.mismatches = 0 → t.copyLost v) →
        s.endedWith t .storeFault ∧ ((s.page v).state = .full → t.page v = s.page v)) ∧
  (∀ (s : State) (p : PageId) (off : Nat) (value actual : Byte) (role : ByteRole) (svc : Service),
    s.pst.step = some (.program p off value role) → s.pst.service = some svc →
    ∃ t, exec (.programCompletion actual) s = .next t ∧
      (role = .header true → actual = value → svc.phase = .opening p [] →
        (t.page p).state = (if 4 ≤ p.val then .head else .used) ∧ (t.page p).writePos = 8 ∧
          (t.page p).headerOk = true) ∧
      (∀ last todo, role = .header last → actual ≠ value → svc.phase = .opening p todo →
        (t.page p).state = (if 4 ≤ p.val then .full else .used) ∧ (t.page p).headerOk = false) ∧
      (∀ units copy todo, role = .recOpen units → svc.phase = .record copy todo →
        (t.page p).writePos = (s.page p).writePos + 4 * units) ∧
      (∀ lost, role = .full → svc.phase = .markFull lost → (t.page p).state = .full)) ∧
  (∀ (s : State) (p : PageId) (off : Nat) (value actual : Byte) (svc : Service) (r : PatchRec) (todo : List TodoByte)
      (role : ByteRole), s.memoryOk →
    s.pst.step = some (.program p off value role) → s.pst.service = some svc → svc.op = .write r →
    svc.phase = .record false todo → svc.victim = none → actual ≠ value →
    ∃ t, exec (.programCompletion actual) s = .next t ∧
      (svc.mismatches = 0 → (role = .recByte ∨ ∃ k base, role = .recSealed k base) → ∀ h, s.headPage = some h →
        (s.page h).writePos + 4 * r.length ≤ 512 →
        t.pst.step = some (.program h (s.page h).writePos 0x00 (.recOpen r.length)) ∧ t.pst.index = s.pst.index) ∧
      (svc.mismatches = 0 → (role = .recLength ∨ ∃ units, role = .recOpen units) →
        t.pst.step = some (.program p 1 0x00 .full) ∧ t.pst.index = s.pst.index) ∧
      (svc.mismatches ≠ 0 → role = .recByte ∨ role = .recLength ∨ (∃ k base, role = .recSealed k base) ∨
          (∃ units, role = .recOpen units) →
        (role = .recLength ∨ (∃ units, role = .recOpen units) → (t.page p).state = .full) ∧
        ∀ e x, s.rqu.queue = [e] → s.servedAt e x → s.mpa.device = .run →
          doneWith t e.area x .storeFault ∧ t.rqu.queue = [] ∧ t.pst.step = none ∧ t.pst.index = s.pst.index)) ∧
  (∀ (s : State) (p : PageId) (off : Nat) (value actual : Byte) (last : Bool) (todo : List TodoByte) (svc : Service)
      (r : PatchRec), s.pst.step = some (.program p off value (.header last)) → s.pst.service = some svc →
    svc.op = .write r → svc.phase = .opening p todo → actual ≠ value → 4 ≤ p.val →
    ∃ t, exec (.programCompletion actual) s = .next t ∧ (t.page p).state = .full ∧ (t.page p).headerOk = false ∧
      t.pst.index = s.pst.index ∧
      (svc.mismatches = 0 → (svc.victim = none → t.placed r) ∧ (svc.victim ≠ none → t.roundBegun)) ∧
      (svc.mismatches ≠ 0 → s.endedWith t .storeFault)) ∧
  (∀ (s : State) (p : PageId) (off : Nat) (value actual : Byte) (role : ByteRole) (todo : List TodoByte) (svc : Service)
      (ring : List PageId), s.pst.step = some (.program p off value role) → s.pst.service = some svc →
    svc.op = .storeCal ring → actual ≠ value → p.val < 4 →
    (svc.phase = .opening p todo ∧ ∃ last, role = .header last) ∨
      (svc.phase = .calRecord p todo ∧ (role = .calByte ∨ role = .calSealed)) →
    ∃ t, exec (.programCompletion actual) s = .next t ∧ t.pst.currentCal = s.pst.currentCal ∧
      ((∃ last, role = .header last) → (t.page p).state = .used ∧ (t.page p).headerOk = false) ∧
      (svc.mismatches = 0 → t.calTried ring) ∧
      (svc.mismatches ≠ 0 ∨ (∀ w ∈ ring, t.calBarred w) → s.endedWith t .storeFault)) ∧
  (∀ (s : State) (p v : PageId) (off : Nat) (value : Byte) (svc : Service) (r : PatchRec),
    s.pst.step = some (.program p off value (.header true)) → s.pst.service = some svc → svc.op = .write r →
    svc.phase = .opening p [] → svc.victim = some v → 4 ≤ p.val → (∀ q : PageId, (s.page q).state ≠ .head) →
    ∃ t, exec (.programCompletion value) s = .next t ∧
      (s.noCurrent v → t.pst.step = some (.erase v (2 + s.mpa.setup.eraseCode))) ∧
      ∀ l : Loc, l.page = v → (∃ k : SlotId, tget s.pst.index k = some l) →
        (∀ (k : SlotId) (l' : Loc), tget s.pst.index k = some l' → l'.page = v → l' = l ∨ l.off < l'.off) →
        let len := (s.setFlash p off value).recordLength l
        8 + 4 * len ≤ 512 → t.pst.step = some (.read v l.off (4 * len))) ∧
  (∀ (s : State) (p : PageId) (off : Nat) (actual : Byte) (svc : Service) (e : StoreEntry) (x : Nat) (ring : List PageId),
    s.memoryOk → s.pst.step = some (.program p off 0x00 .calSealed) → s.pst.service = some svc → svc.phase = .calRecord p [] →
    svc.op = .storeCal ring → s.rqu.queue = [e] → s.servedAt e x → s.mpa.device = .run →
    ∃ t, exec (.programCompletion actual) s = .next t ∧
      (actual = 0x00 → t.pst.currentCal = some p ∧ doneWith t e.area x .ok ∧ t.rqu.queue = [] ∧ t.pst.step = none) ∧
      (actual ≠ 0x00 → t.pst.currentCal = s.pst.currentCal)) ∧
  ∀ (s : State) (p : PageId) (off : Nat) (value actual : Byte) (role : ByteRole) (svc : Service),
    s.pst.step = some (.program p off value role) → s.pst.service = some svc → svc.op = .scan →
    ∃ t, exec (.programCompletion actual) s = .next t ∧
      (∀ (q : PageId) (base : Nat) (rest : List PageId) (k : SlotId), role = .retired →
        svc.phase = .walkProgram q (some base) rest → (s.pst.buffer.getD (base + 3) 0).toNat = k.val →
        let b := s.pst.buffer
        let u := s.putIndex k ⟨q, base⟩
        tget t.pst.index k = some ⟨q, base⟩ ∧
          ∀ (l : List Nat) (stop : Nat), 8 ≤ base → recordsTo b (base + 4 * (b.getD (base + 5) 0).toNat) l stop →
            u.allFresh b l → u.walked t b q rest l stop) ∧
      (∀ (q : PageId) (rest : List PageId), role = .full → svc.phase = .walkProgram q none rest →
        (t.page p).state = .full ∧ (s.putPage p { s.page p with state := .full }).walkGoesOn t rest) ∧
      (∀ rest : List PageId, role = .full → svc.phase = .headFull rest → (t.page p).state = .full ∧
        (∀ q more, rest = q :: more → t.pst.step = some (.program q 1 0x00 .full)) ∧
        (rest = [] → t.spareBegun ∧ (t.tooFew → t.pst.readOnly = true))) ∧
      (role = .header true → svc.phase = .opening p [] → svc.victim = none → actual = value → 4 ≤ p.val →
        (t.page p).state = .head ∧ t.spareBegun ∧ (t.tooFew → t.pst.readOnly = true)) ∧
      ∀ (last : Bool) (todo : List TodoByte), role = .header last → svc.phase = .opening p todo → svc.victim = none →
        actual ≠ value → 4 ≤ p.val →
        (t.page p).state = .full ∧ (t.page p).headerOk = false ∧
          (svc.mismatches = 0 →
            (s.putPage p { s.page p with state := .full, headerOk := false }).headSettled t) ∧
          (svc.mismatches ≠ 0 → t.calBegun)

/-- An erase that passes its blank check leaves the page reading 0xFF throughout and ERASED with its count one greater;
one that fails leaves the residue and a BAD page, with the read-only test; no other page of flash changes (R130, R131,
R135, R137, R138). After the erase of a reclaim's victim, passed or failed, placement is tried again, and a store that has
become read-only ends the operation with STORE_FAULT (R134, R135, R137, R138). An erase that a RESTART left has these
effects on its page, no step follows it without an operation, and one that waited for it begins there (R139, R151; its
read-only test and its pages: log 22, log 24). After the erase of a STORE_CAL's target the page is opened with the tables,
masks and target count in the buffer; after one that failed the next candidate is erased, and with none left the operation
ends with STORE_FAULT (R137, R146). The model's own there: the sequence counter advances at the opening's first step
(log 19), and bits 9 to 15 of a stored trust mask are 0 (log 37). In the start-up scan the erase of a page that could not be
classified leaves it ERASED with count 0, or BAD, and the next page is read; the erase of a spare round leaves it ERASED or
BAD, and the spare goes on (R148, R150; which page a spare round erases: log 25; the scan's reads of 8 bytes of a header
and 486 of a calibration page: log 7; sequence 0 for a page opened with none before it, taken at its first step: log 19). -/
def Obligations.EraseCompletionBlanksThePage : Prop :=
  (∀ (s : State) (v : PageId) (ms : Nat) (svc : Service) (r : PatchRec) (residue : List (Fin 512 × Byte)), s.memoryOk →
    s.pst.step = some (.erase v ms) → s.pst.service = some svc → svc.phase = .erasing → svc.op = .write r →
    s.pst.readOnly = false → residueWf residue = true →
    ∃ t, exec (.eraseCompletion residue) s = .next t ∧
      (∀ (q : PageId) (i : Nat), i < 512 → q ≠ v → t.flashByte q i = s.flashByte q i) ∧
      (∀ i : Fin 512, t.flashByte v i.val = ((residue.find? fun x => x.1 = i).map Prod.snd).getD 0xFF) ∧
      (residue = [] → (t.page v).state = .erased ∧ (t.page v).eraseCount = min ((s.page v).eraseCount + 1) 16777215) ∧
      (residue ≠ [] → (t.page v).state = .bad) ∧ t.pst.index = s.pst.index ∧
      ∀ h, residue = [] → s.headPage = some h → h ≠ v → (s.page v).state ≠ .head →
        (s.page h).writePos + 4 * r.length ≤ 512 →
        t.pst.step = some (.program h (s.page h).writePos 0x00 (.recOpen r.length))) ∧
  (∀ (s : State) (v : PageId) (ms : Nat) (svc : Service) (r : PatchRec) (residue : List (Fin 512 × Byte)),
    s.pst.step = some (.erase v ms) → s.pst.service = some svc → svc.phase = .erasing → svc.op = .write r →
    residueWf residue = true →
    ∃ t, exec (.eraseCompletion residue) s = .next t ∧ (t.pst.readOnly = false → t.placed r) ∧
      (residue ≠ [] → t.tooFew → t.pst.readOnly = true) ∧ (t.pst.readOnly = true → s.endedWith t .storeFault)) ∧
  (∀ (s : State) (p : PageId) (ms : Nat) (residue : List (Fin 512 × Byte)), s.pst.step = some (.erase p ms) →
    s.leftStep → residueWf residue = true →
    ∃ t, exec (.eraseCompletion residue) s = .next t ∧ s.leftoverDone t ∧ t.pst.index = s.pst.index ∧
      (residue = [] → (t.page p).state = .erased ∧ (t.page p).eraseCount = min ((s.page p).eraseCount + 1) 16777215) ∧
      (residue ≠ [] → (t.page p).state = .bad ∧ (t.tooFew → t.pst.readOnly = true))) ∧
  (∀ (s : State) (p : PageId) (ms : Nat) (svc : Service) (ring : List PageId) (residue : List (Fin 512 × Byte)),
    s.pst.step = some (.erase p ms) → s.pst.service = some svc → svc.phase = .calErase p → svc.op = .storeCal ring →
    residueWf residue = true → residue ≠ [] →
    ∃ t, exec (.eraseCompletion residue) s = .next t ∧ (t.page p).state = .bad ∧
      t.pst.currentCal = s.pst.currentCal ∧ t.calTried ring ∧
      ((∀ w ∈ ring, t.calBarred w) → s.endedWith t .storeFault)) ∧
  (∀ (s : State) (p : PageId) (ms : Nat) (svc : Service) (ring : List PageId), s.pst.step = some (.erase p ms) →
    s.pst.service = some svc → svc.phase = .calErase p → svc.op = .storeCal ring → p.val < 4 →
    ∃ t, exec (.eraseCompletion []) s = .next t ∧ (t.page p).state = .erased ∧
      t.pst.step = some (.program p 2 0x43 (.header false)) ∧ (t.page p).seq = s.pst.seqCal ∧
      t.pst.seqCal = s.pst.seqCal + 1 ∧ t.pst.currentCal = s.pst.currentCal ∧ t.tun = s.tun ∧
      ofLe (t.pst.buffer.take 3) = s.mpa.setup.targetT % 2 ^ 24 ∧ sumBytes t.pst.buffer = 0 ∧
      (∀ (o : OscId) (k : AnchorId),
        ofLe ((t.pst.buffer.drop (4 + 18 * o.val + 2 * k.val)).take 2) = (tget (tget s.tun.anchors o) k).val) ∧
      ∀ o : OscId, ofLe ((t.pst.buffer.drop (436 + 2 * o.val)).take 2) = (tget s.tun.trust o).toNat) ∧
  ∀ (s : State) (p : PageId) (ms : Nat) (svc : Service) (residue : List (Fin 512 × Byte)),
    s.pst.step = some (.erase p ms) → s.pst.service = some svc → svc.op = .scan → residueWf residue = true →
    ∃ t, exec (.eraseCompletion residue) s = .next t ∧
      (svc.phase = .scanErase p →
        (residue = [] → (t.page p).state = .erased ∧ (t.page p).eraseCount = 0) ∧
        (residue ≠ [] → (t.page p).state = .bad) ∧ t.classifiedTo p) ∧
      (svc.phase = .erasing → t.spareBegun ∧
        (residue = [] → (t.page p).state = .erased ∧
          (t.page p).eraseCount = min ((s.page p).eraseCount + 1) 16777215) ∧
        (residue ≠ [] → (t.page p).state = .bad ∧ (t.tooFew → t.pst.readOnly = true)))

/-- A read step's completion puts the bytes into the store's buffer and changes no flash (R130). Where a RESTART left the
read, the page states and the index stay, no step follows without an operation, and one that waited for it begins there
(R139, R151; its read-only test and its pages: log 22, log 24). The read of a reclaim's copy begins the copy in the head, at
its write position: OPEN, then the same length, slot, flags, origin, check and body, then SEALED (R132, R135).
The delivery of a RECALL: a record whose sum is 0 loads its clamped values into the part the request names, or into its
origin part for code 3, with its voicing and name where it carries them, and detaches every CATCH knob on the part
(R104, R120; the equal case: log 35); a bad sum delivers nothing. The other part stays (R104, R108, R142).
The scan ends with the read of the first valid calibration record or of the last page it tries: the part enters SETUP with
SUMMARY bit 8 set, a valid record's page is current, and its tables, masks and target count are loaded as they rise; after
a bad record the next page is read (R93, R150, R156). A REVERT_CAL's read of a valid record loads it: a table that rises
with its mask, the nominal table with a clear mask for any other, the record's count as basis, and with another T in force
every mask clear and that T as basis; its page becomes current and the operation ends with OK. A bad record is passed over,
and after the last one the operation ends with NONE (R93, R94, R147). Bits 9 to 15 of a mask's two bytes are dropped at a
load, the model's choice (log 37). A SLOT_INFO's read answers with present, flags, origin, length and the name, or blanks
without one, and with OK or, for a bad sum, CORRUPT (R143, R198).
In the start-up scan a header in use classifies its page with its erase count and sequence; a blank page is ERASED with
count 0; any other page is erased; after the last page the sequence counters are one past the newest pages and the walk
begins with the oldest (R148). The walk of a page gives each sealed record that is not retired its slot's entry, has the
record it supersedes retired first, takes the write position from the blank OPEN, and makes a page FULL whose next length
it cannot pass; after the last page the newest head candidate is the head, the others are FULL, or a head is opened, and
the spare and the calibration step follow (R149, R150). The model's own in these clauses: the division of the scan's
reads (log 7); the sequence that an opening takes at its first step (log 19); the flag bits 3 to 7 that an offered record
may hold (log 21); the victim of the spare and the surplus candidates being FULL at once (log 25). -/
def Obligations.ReadCompletion : Prop :=
  (∀ (s : State) (p : PageId) (off len : Nat), s.pst.step = some (.read p off len) →
    ∃ t, exec .readCompletion s = .next t ∧ t.flash = s.flash ∧ t.pst.buffer = s.flashBytes p off len ∧
      (s.leftStep → s.leftoverDone t ∧ t.pst.index = s.pst.index ∧ ∀ q : PageId, (t.page q).state = (s.page q).state)) ∧
  (∀ (s : State) (p : PageId) (off len : Nat) (svc : Service) (l : Loc) (h : PageId),
    s.pst.step = some (.read p off len) → s.pst.service = some svc → svc.phase = .copyRead l → s.headPage = some h →
    8 ≤ len →
    let w := (s.page h).writePos
    let b (i : Nat) : Byte := s.flashByte p (off + i)
    ∃ t todo, exec .readCompletion s = .next t ∧ t.pst.index = s.pst.index ∧
      t.pst.step = some (.program h w 0x00 (.recOpen (b 5).toNat)) ∧
      t.pst.service = some { svc with phase := .record true todo } ∧
      todo.map (fun x => (x.off, x.value)) =
        [(w + 5, b 5), (w + 3, b 3), (w + 4, b 4), (w + 6, b 6), (w + 7, b 7)] ++
          (List.range (len - 8)).map (fun i => (w + 8 + i, b (8 + i))) ++ [(w + 1, 0x00)]) ∧
  (∀ (s : State) (p : PageId) (off len : Nat) (svc : Service) (part : Byte) (l : Loc),
    s.pst.step = some (.read p off len) → s.pst.service = some svc → svc.phase = .recordRead →
    svc.op = .recall part l →
    let r := bufferRecord (s.flashBytes p off len)
    let x : Part := if part = 1 then .A else if part = 2 then .B else if r.origin = 2 then .B else .A
    ∃ t, exec .readCompletion s = .next t ∧
      (r.sumOk = true →
        (∀ i : Fin 16, t.param x i = min (tget r.partData.params i) 4095) ∧
        t.voicing x = r.partData.voicing.getD (s.voicing x) ∧
        t.prb.name.get x = r.partData.name.getD (Vector.replicate 16 0x20) ∧ s.partDetached t x ∧
        ∀ q : Part, q ≠ x → t.voicing q = s.voicing q ∧ t.prb.name.get q = s.prb.name.get q ∧
          ∀ i : Fin 16, t.param q i = s.param q i) ∧
      (r.sumOk = false → t.prb = s.prb ∧ t.val = s.val ∧ t.psc = s.psc)) ∧
  (∀ (s : State) (p : PageId) (svc : Service) (rest : List PageId), s.pst.step = some (.read p 8 486) →
    s.pst.service = some svc → s.mpa.device = .starting → svc.op = .scan → svc.phase = .calRead p rest →
    let b := s.flashBytes p 8 486
    ∃ t, exec .readCompletion s = .next t ∧
      (calValid b = true ∨ rest = [] → t.mpa.device = .setup ∧ t.mpa.summary.getLsbD 8 = true ∧
        t.pst.step = none ∧ t.pst.service = none) ∧
      (calValid b = true → t.pst.currentCal = some p ∧ t.tun.basis = some (calTarget b) ∧
        ∀ o : OscId, tget t.tun.anchors o = (if tableRises (tget (calTables b) o) = true then tget (calTables b) o
            else nominalTable) ∧
          tget t.tun.trust o = (if tableRises (tget (calTables b) o) = true then tget (calMasks b) o else 0)) ∧
      (calValid b = false → t.pst.currentCal = s.pst.currentCal ∧ t.tun = s.tun ∧
        ∀ q more, rest = q :: more → t.pst.step = some (.read q 8 486) ∧ t.mpa = s.mpa)) ∧
  (∀ (s : State) (p : PageId) (svc : Service) (rest : List PageId) (older : List PageId) (e : StoreEntry) (x : Nat),
    s.memoryOk → s.pst.step = some (.read p 8 486) → s.pst.service = some svc → svc.op = .revertCal older →
    svc.phase = .calRead p rest → s.rqu.queue = [e] → s.servedAt e x → s.mpa.device = .run →
    let b := s.flashBytes p 8 486
    ∃ t, exec .readCompletion s = .next t ∧
      (calValid b = true → t.pst.currentCal = some p ∧ doneWith t e.area x .ok ∧ t.rqu.queue = [] ∧
        t.pst.step = none ∧ t.tun.basis = some s.mpa.setup.targetT ∧
        ∀ o : OscId, tget t.tun.anchors o = (if tableRises (tget (calTables b) o) = true then tget (calTables b) o
            else nominalTable) ∧
          tget t.tun.trust o = (if tableRises (tget (calTables b) o) = true ∧ calTarget b = s.mpa.setup.targetT then
            tget (calMasks b) o else 0)) ∧
      (calValid b = false → t.tun = s.tun ∧ t.pst.currentCal = s.pst.currentCal ∧
        (rest = [] → doneWith t e.area x .nothing ∧ t.rqu.queue = [] ∧ t.pst.step = none) ∧
        ∀ q more, rest = q :: more → t.pst.step = some (.read q 8 486) ∧ t.rqu.queue = s.rqu.queue)) ∧
  (∀ (s : State) (p : PageId) (off len : Nat) (svc : Service) (l : Loc) (e : StoreEntry) (x : Nat), s.memoryOk →
    s.pst.step = some (.read p off len) → s.pst.service = some svc → svc.op = .info l → svc.phase = .recordRead →
    s.rqu.queue = [e] → s.servedAt e x → s.mpa.device = .run →
    let r := bufferRecord (s.flashBytes p off len)
    ∃ t, exec .readCompletion s = .next t ∧ doneWith t e.area x (if r.sumOk then .ok else .corrupt) ∧
      t.peek (x + 6) = 1 ∧ t.peek (x + 7) = r.flags ∧ t.peek (x + 8) = r.origin ∧
      (t.peek (x + 9)).toNat = r.length ∧
      (∀ i : Fin 16, t.peek (x + 10 + i.val) =
        if r.flags.getLsbD 0 then r.body.getD ((if r.flags.getLsbD 1 then 40 else 32) + i.val) 0 else 0x20) ∧
      t.prb = s.prb ∧ t.val = s.val ∧ t.rqu.queue = [] ∧ t.pst.step = none) ∧
  (∀ (s : State) (p : PageId) (svc : Service), s.pst.step = some (.read p 0 8) → s.pst.service = some svc →
    svc.op = .scan → svc.phase = .scanHeader p →
    let b (i : Nat) : Byte := s.flashByte p i
    let inUse : Prop := b 0 = 0x00 ∧ b 2 = (if 4 ≤ p.val then 0x50 else 0x43)
    let blank : Prop := ∀ i, i < 8 → b i = 0xFF
    ∃ t, exec .readCompletion s = .next t ∧
      (inUse →
        (t.page p).state =
          (if 4 ≤ p.val then (if b 1 = 0xFF then .candidate else .full) else .used) ∧
        (t.page p).eraseCount = (b 3).toNat + 256 * (b 4).toNat + 65536 * (b 5).toNat ∧
        (t.page p).seq.toNat = (b 6).toNat + 256 * (b 7).toNat ∧ t.classifiedTo p) ∧
      (blank → t.pst.step = some (.read p 0 512) ∧ t.page p = s.page p) ∧
      (¬ inUse → ¬ blank → t.pst.step = some (.erase p (2 + s.mpa.setup.eraseCode)))) ∧
  (∀ (s : State) (p : PageId) (svc : Service), s.pst.step = some (.read p 0 512) → s.pst.service = some svc →
    svc.op = .scan → svc.phase = .scanWhole p →
    ∃ t, exec .readCompletion s = .next t ∧
      ((∀ i, i < 512 → s.flashByte p i = 0xFF) →
        (t.page p).state = .erased ∧ (t.page p).eraseCount = 0 ∧ t.classifiedTo p) ∧
      (¬ (∀ i, i < 512 → s.flashByte p i = 0xFF) → t.pst.step = some (.erase p (2 + s.mpa.setup.eraseCode)))) ∧
  ∀ (s : State) (p : PageId) (svc : Service) (rest : List PageId) (l : List Nat) (stop : Nat),
    s.pst.step = some (.read p 0 512) → s.pst.service = some svc → svc.op = .scan → svc.phase = .walkRead p rest →
    recordsTo (s.flashBytes p 0 512) 8 l stop → s.allFresh (s.flashBytes p 0 512) l →
    ∃ t, exec .readCompletion s = .next t ∧ s.walked t (s.flashBytes p 0 512) p rest l stop

/-! ### The Refresh Engine and the timers -/

/-- The load phase puts the slot's code into the DAC with DAC_CS high, drives the channel's number and raises SHSTB; it
changes nothing else (R62). During the shift DAC_CLK is low in the first half of each of 24 periods and high in the
second, and DAC_DATA carries 0x30 and then the code, most significant bit first; with DAC_CS high DAC_CLK is low (R63;
the halves of a period: log 31). At the end of a strobe the channel holds the slot's code, and the next slot takes the
head of the jump queue, or else the channel at the round position, which advances from 127 to 0; with a gate hold
that is not 0 no push falls between (R61, R62, R65). The slot begun holds the code, the onset and the stamp that the
computation of its channel gives, and the divider and dwell in force (R43, R62, R64). -/
def Obligations.SlotsOfTheRefreshEngine : Prop :=
  (∀ (s : State) (k : Slot), s.rfe.slot = some k → k.strobing = false →
    ∃ t, exec .load s = .next t ∧ t.rfe.dacOut = k.code ∧ t.rfe.sha = k.chan ∧ t.shstb = true ∧ t.dacCs = true ∧
      s.dacCs = false ∧
      t = { s with rfe := { s.rfe with dacOut := k.code, sha := k.chan, slot := some { k with strobing := true } } } ∧
      (∀ h : Fin 48, s.dacClk h = decide (h.val % 2 = 1) ∧ t.dacClk h = false) ∧
      (∀ (h : Fin 48) (i : Nat), h.val / 2 = i →
        s.dacData h = if i < 8 then (0x30#8).getLsbD (7 - i) else k.code.val.testBit (23 - i))) ∧
  (∀ (s : State) (k : Slot), s.rfe.slot = some k → k.strobing = true →
    ∃ t, exec .channelWritten s = .next t ∧ tget t.rfe.cv k.chan = k.code ∧
      (∀ n : ChanId, n ≠ k.chan → tget t.rfe.cv n = tget s.rfe.cv n) ∧
      (∀ n rest, s.rfe.jump = n :: rest → t.rfe.slot.map Slot.chan = some n ∧ t.rfe.round = s.rfe.round ∧
        ∃ more, t.rfe.jump = rest ++ more) ∧
      (s.rfe.jump = [] → s.mpa.setup.gateHold ≠ 0 → t.rfe.slot.map Slot.chan = some s.rfe.round ∧
        t.rfe.round.val = (s.rfe.round.val + 1) % 128 ∧ t.rfe.jump = []) ∧
      (∃ n : ChanId, (t.compute n).after = t ∧
        t.rfe.slot = some ⟨n, (t.compute n).code, (t.compute n).onset, (t.compute n).stamp, s.mpa.setup.divider,
          s.mpa.setup.dwell, false⟩) ∧
      t.rfe.slot.map Slot.strobing = some false ∧ t.prb = s.prb ∧ t.nrt = s.nrt ∧ t.pst = s.pst)

/-- A push adds a channel at the tail unless it is queued already or 32 are queued; device reset and RESTART leave the
queue empty; the channel whose slot begins leaves the queue, so that a push during its own slot joins again; an
assignment and a SINGLE key change push PITCH_A, PITCH_B and CUTOFF in that order, and an override set pushes its
channel (R5, R21, R66, R68). -/
def Obligations.PushesOfTheJumpQueue : Prop :=
  State.reset.rfe.jump = [] ∧
  ∀ (s : State) (n : ChanId),
    (n ∈ s.rfe.jump ∨ 32 ≤ s.rfe.jump.length → s.push n = s) ∧
    (s.jumpOk → (s.push n).jumpOk) ∧
    (n ∉ s.rfe.jump → s.rfe.jump.length < 32 → s.push n = { s with rfe := { s.rfe with jump := s.rfe.jump ++ [n] } }) ∧
    s.restartRefresh.rfe.jump = [] ∧
    (∀ h rest, s.jumpOk → s.rfe.jump = h :: rest →
      s.chooseChannel.1 = h ∧ s.chooseChannel.2.rfe.jump = rest ∧ h ∉ s.chooseChannel.2.rfe.jump ∧
        s.chooseChannel.2.push h = { s with rfe := { s.rfe with jump := rest ++ [h] } }) ∧
    ∀ (v : VoiceId) (e : HeldKey) (i : VoiceId) (multi : Bool) (o : OscId) (code : Code),
      (s.assign v e i multi).rfe = (((s.push (chanOf v 0)).push (chanOf v 1)).push (chanOf v 2)).rfe ∧
      (s.singleChange v e).rfe = (((s.push (chanOf v 0)).push (chanOf v 1)).push (chanOf v 2)).rfe ∧
      (s.setOverride o code).rfe.jump = (s.push (pitchChan o)).rfe.jump ∧
      (s.setOverride o code).rfe.stamp = s.rfe.stamp + 1 ∧
      tget (s.setOverride o code).rfe.overrides o = some ⟨code, s.rfe.stamp + 1⟩

/-- A PENDING voice with both pitch channels written and its gap stopped becomes ON with its hold running, at the
channel-written event that brings the last flag or at its gap expiry; a stale onset sets no flag (R7 to R9). With a gate
hold of 0 the hold expiry of the voice just opened is applied in that event (R9, R10). The hold expiry stops the timer;
without a deferred release nothing else happens, and with one an ON voice becomes SUSTAINED under a pedal that is down,
or FREE at the tail of the free list (R10, R11, R13). The freed voice of a POLY part with restore takes the part's newest
voiceless key, with its report; a MONO or UNISON part with held keys and no other busy voice starts on its priority key;
any other part is served no further (R13, R18, R20, R22). Under a background job the IDLE channel of the freed voice's
card then takes the first oscillator of its list whose voice is FREE (R87). -/
def Obligations.GatesOpenAndHold : Prop :=
  (∀ (s : State) (v : VoiceId), (s.voice v).state = .pending → s.mpa.setup.gateHold ≠ 0 →
    ((s.voice v).gapRunning = true → (s.voice v).aWritten = true → (s.voice v).bWritten = true →
      ∃ t, exec (.gapExpiry v) s = .next t ∧ (t.voice v).state = .on ∧ t.gatePin v = true ∧
        (t.voice v).holdRunning = true ∧ (t.voice v).gapRunning = false ∧
        (∀ w : VoiceId, w ≠ v → t.voice w = s.voice w) ∧ t.rfe = s.rfe) ∧
    ((s.voice v).gapRunning = true → ((s.voice v).aWritten = false ∨ (s.voice v).bWritten = false) →
      ∃ t, exec (.gapExpiry v) s = .next t ∧ t.voice v = { s.voice v with gapRunning := false }) ∧
    ∀ k : Slot, s.rfe.slot = some k → k.strobing = true → k.chan = chanOf v 0 ∨ k.chan = chanOf v 1 →
      (k.onset = some (s.voice v).onset → (s.voice v).gapRunning = false →
        (k.chan = chanOf v 0 ∨ (s.voice v).aWritten = true) → (k.chan = chanOf v 1 ∨ (s.voice v).bWritten = true) →
        ∃ t, exec .channelWritten s = .next t ∧ (t.voice v).state = .on ∧ (t.voice v).holdRunning = true) ∧
      (k.onset ≠ some (s.voice v).onset → ((s.voice v).aWritten && (s.voice v).bWritten) = false →
        ∃ t, exec .channelWritten s = .next t ∧ (t.voice v).state = .pending ∧
          (t.voice v).aWritten = (s.voice v).aWritten ∧ (t.voice v).bWritten = (s.voice v).bWritten)) ∧
  (∀ (s : State) (v : VoiceId), s.listsOk → (s.voice v).state = .on → (s.voice v).holdRunning = true →
    ((s.voice v).offDeferred = false → ∃ t, exec (.holdExpiry v) s = .next t ∧
      t.voice v = { s.voice v with holdRunning := false } ∧ (∀ w : VoiceId, w ≠ v → t.voice w = s.voice w) ∧
      t.val = { s.val with voices := t.val.voices } ∧ t.rfe = s.rfe) ∧
    ((s.voice v).offDeferred = true → s.nrt.pedal.get (s.voice v).part = true →
      ∃ t, exec (.holdExpiry v) s = .next t ∧
        t.voice v = { s.voice v with state := .sustained, holdRunning := false, offDeferred := false } ∧
        (∀ w : VoiceId, w ≠ v → t.voice w = s.voice w) ∧ t.val = { s.val with voices := t.val.voices }) ∧
    ((s.voice v).offDeferred = true → s.nrt.pedal.get (s.voice v).part = false →
      (s.voicing (s.voice v).part).mode = .poly → (s.voicing (s.voice v).part).restore = false → s.tun.job = none →
      ∃ t, exec (.holdExpiry v) s = .next t ∧ (t.voice v).state = .free ∧ (t.voice v).key = (s.voice v).key ∧
        (t.voice v).c = (s.voice v).c ∧ (t.voice v).offDeferred = false ∧ (t.voice v).holdRunning = false ∧
        t.val.free = s.val.free ++ [v] ∧ t.val.busy = s.val.busy.erase v ∧
        ∀ w : VoiceId, w ≠ v → t.voice w = s.voice w)) ∧
  (∀ (s : State) (v : VoiceId), (s.voice v).state = .pending → s.mpa.setup.gateHold = 0 →
    ((s.voice v).gapRunning = true → (s.voice v).aWritten = true → (s.voice v).bWritten = true →
      s.opensTo v (.gapExpiry v)) ∧
    ∀ k : Slot, s.rfe.slot = some k → k.strobing = true → k.onset = some (s.voice v).onset →
      (s.voice v).gapRunning = false →
      (k.chan = chanOf v 0 ∧ (s.voice v).bWritten = true) ∨ (k.chan = chanOf v 1 ∧ (s.voice v).aWritten = true) →
      s.opensTo v .channelWritten) ∧
  ∀ (s : State) (v : VoiceId) (p : Part), s.listsOk → (s.voice v).state = .on → (s.voice v).holdRunning = true →
    (s.voice v).offDeferred = true → (s.voice v).part = p → s.nrt.pedal.get p = false →
    let poly : Prop := (s.voicing p).mode = .poly
    let starts : Prop := ¬ poly ∧ s.held p ≠ [] ∧ s.busyOf p = [v]
    let c : CardId := voiceCard v
    ∃ t, exec (.holdExpiry v) s = .next t ∧ t.nrt = s.nrt ∧ t.prb = s.prb ∧
      (∀ e : HeldKey, poly → (s.voicing p).restore = true → s.newestWithout p v (s.held p) e →
        (t.voice v).state = .pending ∧ (t.voice v).key = some e.key ∧ (t.voice v).velocity = e.velocity ∧
          (t.voice v).onset = s.val.onset + 1 ∧ (t.voice v).gapRunning = false ∧
          (∀ w : VoiceId, w ≠ v → t.voice w = s.voice w) ∧ t.val.busy = s.val.busy.erase v ++ [v] ∧
          t.val.free = s.val.free ∧ t.val.tune = s.val.tune ∧ t.tun = s.tun ∧
          ∀ (m : AreaId) (x : Nat), s.memoryOk → s.rpu.voiceArea = some m → s.reportOpen m x →
            readsAs t x (markFull :: 0x05 :: (leBytes 2 v.val ++ leBytes 2 e.key.val ++ [0, 0])) ∧
              t.mpa.summary.getLsbD m.val = true) ∧
      (starts → (s.background = false ∨ (s.chan c).state ≠ .idle) → ∃ e : HeldKey,
        isPriority (s.voicing p).priority (s.held p) e ∧
          let vs := (allVoices.filter fun w => (s.voice w).part = p && ((s.voice w).state = .free || w = v)).take
            (if (s.voicing p).mode = .mono then 1 else (s.voicing p).count)
          vs ≠ [] →
            (∀ (i : Nat) (w : VoiceId), vs[i]? = some w →
              (t.voice w).state = .pending ∧ (t.voice w).key = some e.key ∧ (t.voice w).velocity = e.velocity ∧
                (t.voice w).unison.val = i) ∧
              (v ∉ vs → t.voice v = (s.voice v).freed) ∧ (∀ w : VoiceId, w ∉ vs → w ≠ v → t.voice w = s.voice w) ∧
              t.val.busy = s.val.busy.erase v ++ vs ∧ t.tun = s.tun ∧
              ((s.voicing p).mode = .unison → (t.val.group.get p).val = vs.length)) ∧
      (¬ starts → (poly → (s.voicing p).restore = true → ∀ e ∈ s.held p, ∃ w ∈ s.busyOf p, w ≠ v ∧
          (s.voice w).key = some e.key) →
        let opens (w : VoiceId) : Prop := (s.voice w).state = .free ∨ w = v
        (t.val.group.get p = if s.busyOf p = [v] then 0 else s.val.group.get p) ∧
          t.val.busy = s.val.busy.erase v ∧ t.rpu = s.rpu ∧
          (s.background = false ∨ (s.chan c).state ≠ .idle ∨ (∀ x ∈ s.pendingList c, ¬ opens (oscVoice x.osc)) →
            t.voice v = (s.voice v).freed ∧ (∀ w : VoiceId, w ≠ v → t.voice w = s.voice w) ∧
              t.val.free = s.val.free ++ [v] ∧ t.val.tune = s.val.tune ∧ t.tun = s.tun ∧ t.rfe = s.rfe) ∧
          ∀ (q : PendingOsc) (k : AnchorId) (ks : List AnchorId) (more less : List PendingOsc),
            s.background = true → (s.chan c).state = .idle → s.pendingList c = less ++ q :: more →
            q.anchors = k :: ks → opens (oscVoice q.osc) →
            (∀ x ∈ less, x.osc ≠ q.osc ∧ ¬ opens (oscVoice x.osc)) →
            (t.chan c).state = .setting ∧ (t.chan c).osc = some q.osc ∧ (t.chan c).voice = some (oscVoice q.osc) ∧
              (t.chan c).anchor = k ∧ (t.chan c).rest = ks ∧ (t.voice (oscVoice q.osc)).state = .tuning ∧
              t.pendingList c = less ++ more)

/-- A glide expiry moves every busy gliding voice's c toward its target by the step of its part's P3, not beyond it, and
ends the glide there; every other voice stays, and nothing is pushed (R48, R50). -/
def Obligations.GlideExpirySteps : Prop :=
  ∀ s : State, ∃ t, exec .glideExpiry s = .next t ∧ t.rfe = s.rfe ∧ t.nrt = s.nrt ∧ t.prb = s.prb ∧ t.tun = s.tun ∧
    t.val = { s.val with voices := t.val.voices } ∧
    ∀ v : VoiceId,
      let r := s.voice v
      let step := (4095 - s.param r.part 3) / 8 + 1
      (r.state.busy = true ∧ r.glideActive = true → ∀ k, r.key = some k →
        let target := clampInt 0 32767 (((k.val : Int) + (s.voicing r.part).transpose) * 256)
        ((r.c.val : Int) ≤ target → ((t.voice v).c.val : Int) = min ((r.c.val : Int) + step) target) ∧
        (target ≤ r.c.val → ((t.voice v).c.val : Int) = max ((r.c.val : Int) - step) target) ∧
        (t.voice v).glideActive = decide (((t.voice v).c.val : Int) ≠ target) ∧
        t.voice v = { r with c := (t.voice v).c, glideActive := (t.voice v).glideActive }) ∧
      (¬ (r.state.busy = true ∧ r.glideActive = true) → t.voice v = r)

/-! ### The panel -/

/-- The knob scan timer's expiry arms it again with the interval in force and begins an ordinary pass at knob 0 (R113).
A switch sample reads matrix switch 8d + s closed where SWSs is low under SWDd, and switch 64 or 65 where PDL0 or PDL1 is
low (R124), and debounces every switch in every device state (R125); while RESET is held low it does nothing (log 8). Outside RUN it changes
nothing else; in RUN a changed switch sets the pedals of its function, closed down and open up, the last of several
switches on one part stands, a switch mapped to REPORT sets none, and without a changed pedal switch no voice changes
(R126). Each changed switch makes its SWITCH report pending, which stays pending while its area is full, whichever area
the VOICE reports of the same event go to (R128). -/
def Obligations.ScansOfThePanel : Prop :=
  (∀ s : State,
    (s.psc.pass = none → s.mpa.device ≠ .held → exec .knobScanExpiry s =
      .next { s with psc := { s.psc with pass := some ⟨false, 0⟩, armed := s.mpa.setup.scanInterval } }) ∧
    ∀ (sense : Vector Byte 8) (pedals : BitVec 2),
      let closed (j : SwitchId) : Bool :=
        if h : j.val < 64 then !(tget sense ⟨j.val / 8, by omega⟩).getLsbD (j.val % 8)
        else !pedals.getLsbD (j.val - 64)
      let changed (j : SwitchId) : Prop := closed j ≠ (tget s.psc.switches j).closed ∧
        s.mpa.setup.debounce ≤ (tget s.psc.switches j).count + 1
      let sets (j : SwitchId) (p : Part) : Prop := (tget s.psc.switches j).func = .sustainBoth ∨
        (tget s.psc.switches j).func = (match p with | .A => .sustainA | .B => .sustainB)
      (s.mpa.device = .held → exec (.switchSample ⟨sense, pedals⟩) s = .next s) ∧
      (s.mpa.device ≠ .held → ∃ t, exec (.switchSample ⟨sense, pedals⟩) s = .next t ∧
        (∀ j : SwitchId,
          let w := tget s.psc.switches j
          tget t.psc.switches j =
            if closed j = w.closed then { w with count := 0 }
            else if s.mpa.setup.debounce ≤ w.count + 1 then { w with closed := closed j, count := 0 }
            else { w with count := w.count + 1 }) ∧
        t.psc = { s.psc with switches := t.psc.switches } ∧ t.prb = s.prb ∧ t.pst = s.pst ∧ t.rqu = s.rqu ∧
        t.flash = s.flash ∧ t.nrt = { s.nrt with pedal := t.nrt.pedal } ∧
        (s.mpa.device ≠ .run → t = { s with psc := { s.psc with switches := t.psc.switches } }) ∧
        (s.mpa.device = .run →
          (∀ p : Part,
            (∀ j : SwitchId, changed j → sets j p → (∀ i : SwitchId, j < i → changed i → ¬ sets i p) →
              t.nrt.pedal.get p = closed j) ∧
            ((∀ j : SwitchId, changed j → ¬ sets j p) → t.nrt.pedal.get p = s.nrt.pedal.get p)) ∧
          ((∀ j : SwitchId, changed j → (tget s.psc.switches j).func = .report) →
            t.nrt = s.nrt ∧ t.val = s.val ∧ t.rfe = s.rfe ∧ t.tun = s.tun) ∧
          ∀ m : AreaId, s.rpu.panelArea = some m → s.reportFull m →
            s.rpu.voiceArea = none ∨ s.rpu.voiceArea = some m ∨ (s.layoutOk ∧ s.memoryOk) →
            ∀ j : SwitchId, (changed j → tget t.rpu.switches j = true) ∧
              (¬ changed j → tget t.rpu.switches j = tget s.rpu.switches j))))

/-- A knob sample outside RUN is discarded; in an ordinary pass in RUN a snapped value within the deadband and off the
ends changes nothing, and an accepted one becomes the knob's position, is written by a DIRECT knob, added by a
RELATIVE one, and writes nothing from a knob without a target (R113, R114, R116 to R118). A CATCH knob that is
DETACHED attaches and writes exactly when its accepted position reaches or crosses its target's value; ATTACHED it
writes like a DIRECT one (R119). A write has every other DETACHED CATCH knob on its parameter compare again, and changes
no other knob; a sample that writes nothing changes none (R121). Each accepted position, and each sample of the baseline
pass, makes the knob's report pending, which stays pending while its area is full (R115, R123). -/
def Obligations.KnobSamplesActThroughTheMode : Prop :=
  (∀ (s : State) (x : Pass) (raw : ParamVal), s.psc.pass = some x →
    let i := x.next
    let k := s.knob i
    let z := s.mpa.setup.endZone
    let v : Nat := if raw.val ≤ z then 0 else if 4095 - z ≤ raw.val then 4095 else raw.val
    let take : Prop := s.mpa.setup.deadband ≤ ((v : Int) - k.last.val).natAbs ∨ ((v = 0 ∨ v = 4095) ∧ v ≠ k.last.val)
    let crosses (n : ParamId) : Prop := v = (tget s.prb.params n).val ∨
      (k.side = .below ∧ (tget s.prb.params n).val < v) ∨ (k.side = .above ∧ v < (tget s.prb.params n).val)
    let writes (n : ParamId) : Prop := s.resolve k.target = some n ∧
      (k.mode = .direct ∨ k.mode = .relative ∨ (k.mode = .catchMode ∧ (k.detached = false ∨ crosses n)))
    let compared (w : Knob) (q : ParamVal) : Knob :=
      { w with detached := w.last != q, side := if w.last < q then .below else if q < w.last then .above else w.side }
    ∃ t, exec (.knobSample raw) s = .next t ∧
      (∀ w, t.psc.pass = some w ↔ x.next.val < 47 ∧ w.baseline = x.baseline ∧ w.next.val = x.next.val + 1) ∧
      t.val = s.val ∧ t.nrt = s.nrt ∧ t.rfe = s.rfe ∧ t.tun = s.tun ∧ t.pst = s.pst ∧ t.rqu = s.rqu ∧
      t.flash = s.flash ∧ t.psc.switches = s.psc.switches ∧ t.psc.armed = s.psc.armed ∧
      (s.mpa.device ≠ .run → t = { s with psc := { s.psc with pass := t.psc.pass } }) ∧
      (s.mpa.device = .run → x.baseline = false → ¬ take → t = { s with psc := { s.psc with pass := t.psc.pass } }) ∧
      (s.mpa.device = .run → x.baseline = false → take →
        (t.knob i).last.val = v ∧
        (∀ n, s.resolve k.target = some n → k.mode = .direct → (tget t.prb.params n).val = v) ∧
        (∀ n, s.resolve k.target = some n → k.mode = .relative →
          ((tget t.prb.params n).val : Int) =
            clampInt 0 4095 (((tget s.prb.params n).val : Int) + ((v : Int) - k.last.val))) ∧
        (∀ n, k.mode = .catchMode → writes n → (tget t.prb.params n).val = v ∧ (t.knob i).detached = false) ∧
        (k.target = .none ∨ k.mode = .none → t.prb = s.prb) ∧
        ((∀ n, ¬ writes n) → t.prb = s.prb ∧ t.knob i = { k with last := (t.knob i).last } ∧
          ∀ w : KnobId, w ≠ i → t.knob w = s.knob w) ∧
        (∀ n, writes n → ∀ w : KnobId, w ≠ i → t.knob w =
          if (s.knob w).mode = .catchMode ∧ (s.knob w).detached = true ∧ s.resolve (s.knob w).target = some n then
            compared (s.knob w) (tget t.prb.params n)
          else s.knob w) ∧
        ∀ n, s.resolve k.target ≠ some n → tget t.prb.params n = tget s.prb.params n) ∧
      (s.mpa.device = .run → x.baseline = true → (t.knob i).last.val = v ∧ t.prb = s.prb ∧
        (∀ n, k.mode = .catchMode → s.resolve k.target = some n →
          t.knob i = compared { k with last := (t.knob i).last } (tget s.prb.params n)) ∧
        ((k.mode ≠ .catchMode ∨ k.target = .none) → t.knob i = { k with last := (t.knob i).last }) ∧
        ∀ w : KnobId, w ≠ i → t.knob w = s.knob w) ∧
      (s.mpa.device = .run → x.baseline = true ∨ take →
        (s.rpu.panelArea = none → t.rpu = s.rpu) ∧
        ∀ m, s.rpu.panelArea = some m → s.reportFull m →
          t.rpu = { s.rpu with knobs := tset s.rpu.knobs i true } ∧ sameMemoryBut (s.inImage 0 352) s t)) ∧
  (∀ (s : State) (i : KnobId) (u v : ParamVal) (n : ParamId), (s.knob i).mode = .catchMode →
    s.resolve (s.knob i).target = some n → (s.knob i).last = v →
    let k := s.knob i
    let q := tget s.prb.params n
    let t := s.knobAction i u v
    let crosses : Prop := v = q ∨ (k.side = .below ∧ q < v) ∨ (k.side = .above ∧ v < q)
    (k.detached = true → crosses → tget t.prb.params n = v ∧ (t.knob i).detached = false) ∧
      (k.detached = true → ¬ crosses → t = s) ∧
      (k.detached = false → tget t.prb.params n = v ∧ t.knob i = k) ∧
      (∀ j : ParamId, j ≠ n → tget t.prb.params j = tget s.prb.params j) ∧
      ∀ w : KnobId, w ≠ i → (t.knob w).last = (s.knob w).last ∧ (t.knob w).mode = (s.knob w).mode ∧
        (t.knob w).target = (s.knob w).target)

/-! ### Control-voltage arithmetic -/

/-- The expansion channels carry P7 to P13 of the voice's part and G0 to G7 as P × 16 + (P >> 8), whatever the voice's
key, velocity and state; distinct parameter values give distinct codes, in order (R57). The CUTOFF code is P4 × 16
plus key tracking from key 60 and velocity amount from velocity 64, floored and clamped; an absent key counts as 60,
and no flag changes (R44, R56). -/
def Obligations.ParameterChannels : Prop :=
  ((∀ (s : State) (v : VoiceId) (f : Fin 10), 3 ≤ f.val →
    (s.compute (chanOf v f)).after = s ∧ ∃ i : Fin 16, i.val = f.val + 4 ∧
      (s.compute (chanOf v f)).code.val = s.param (s.voice v).part i * 16 + s.param (s.voice v).part i / 256) ∧
  (∀ (s : State) (g : Fin 8) (n : ChanId), n.val = 120 + g.val → (s.compute n).after = s ∧
    (s.compute n).code.val = s.global g * 16 + s.global g / 256) ∧
  (expandCode 0).val = 0 ∧ (expandCode 2048).val = 32776 ∧ (expandCode 4095).val = 65535 ∧
  ∀ p q : ParamVal, p < q → expandCode p.val < expandCode q.val) ∧
  (∀ (s : State) (v : VoiceId),
    let r := s.voice v
    let key : Int := match r.key with
      | some k => k.val
      | none => 60
    (s.compute (chanOf v 2)).after = s ∧
    ((s.compute (chanOf v 2)).code.val : Int) =
      clampInt 0 65535 ((s.param r.part 4 : Int) * 16 + Int.fdiv ((key - 60) * 512 * s.param r.part 5) 4096 +
        Int.fdiv (((r.velocity.val : Int) - 64) * s.param r.part 6) 8))

/-- The coarse terms run from −24 to +24 semitones with 0 at 2048, the fine terms from −128 to +127 pitch units, and
together they reach −6272 to +6271 pitch units; the formulas are those of R45. The bend offset is floor((b × r + 16)
/ 32), reaches r semitones at either end and is 0 for a range of 0 (R46). -/
def Obligations.PitchTerms : Prop :=
  ((∀ p : ParamVal, coarseTerm p.val = Int.fdiv ((p.val : Int) * 48 + 2047) 4095 - 24 ∧
    -24 ≤ coarseTerm p.val ∧ coarseTerm p.val ≤ 24 ∧
    fineTerm p.val = Int.fdiv (p.val : Int) 16 - 128 ∧ -128 ≤ fineTerm p.val ∧ fineTerm p.val ≤ 127) ∧
  coarseTerm 0 = -24 ∧ coarseTerm 42 = -24 ∧ coarseTerm 43 = -23 ∧ coarseTerm 2048 = 0 ∧ coarseTerm 4095 = 24 ∧
  fineTerm 0 = -128 ∧ fineTerm 2048 = 0 ∧ fineTerm 4095 = 127 ∧
  (∀ p q : ParamVal, -6272 ≤ 256 * coarseTerm p.val + fineTerm q.val ∧
    256 * coarseTerm p.val + fineTerm q.val ≤ 6271) ∧
  ∀ (s : State) (v : VoiceId),
    let r := s.voice v
    let rest := (r.c.val : Int) + bendOffset (s.nrt.bend.get r.part) (s.voicing r.part).bendRange + s.unisonOffset v
    s.pitchSum (oscA v) = rest + 256 * coarseTerm (s.param r.part 0) + fineTerm (s.param r.part 15) ∧
      s.pitchSum (oscB v) = rest + 256 * coarseTerm (s.param r.part 1) + fineTerm (s.param r.part 2)) ∧
  ((∀ (b : Int) (r : Nat), bendOffset b r = Int.fdiv (b * r + 16) 32) ∧ (∀ b : Int, bendOffset b 0 = 0) ∧
  (∀ r : Fin 13, bendOffset 8191 r.val = 256 * r.val ∧ bendOffset (-8192) r.val = -256 * (r.val : Int)) ∧
  bendOffset (-1) 1 = 0 ∧ bendOffset (-17) 1 = -1)

/-- Under a rising table the code of a pitch at an anchor is the anchor's code, the code never falls as the pitch rises,
and the nominal table gives 2p without a code clamp (R53). The unison offsets of a group lie symmetric about its
pitch, the outermost members at plus and minus the spread; a group of one, or a voice that is not busy in a UNISON
part, has none; a busy voice of a UNISON part with index i in a group of n has S × (2i − n + 1) ÷ (n − 1), truncated,
with S = P14 >> 4 (R47). -/
def Obligations.PitchArithmetic : Prop :=
  ((∀ (t : Vector Code 9) (k : AnchorId), tableRises t = true → rawCode t (6144 + 3072 * (k.val : Int)) = (tget t k).val) ∧
  (∀ (t : Vector Code 9) (p q : Int), tableRises t = true → 0 ≤ p → p ≤ q → q ≤ 32767 → rawCode t p ≤ rawCode t q) ∧
  ∀ p : Int, 0 ≤ p → p ≤ 32767 → rawCode nominalTable p = 2 * p) ∧
  ((∀ S n i : Nat, 2 ≤ n → i < n → unisonTerm S i n = -unisonTerm S (n - 1 - i) n) ∧
  (∀ S n : Nat, 2 ≤ n → unisonTerm S 0 n = -(S : Int) ∧ unisonTerm S (n - 1) n = S) ∧
  (∀ S i n : Nat, n < 2 → unisonTerm S i n = 0) ∧
  ∀ (s : State) (v : VoiceId), (s.voice v).state.busy = false ∨ (s.voicing (s.voice v).part).mode ≠ .unison →
    s.unisonOffset v = 0) ∧
  (∀ (s : State) (v : VoiceId), (s.voice v).state.busy = true → (s.voicing (s.voice v).part).mode = .unison →
    let n : Nat := (s.val.group.get (s.voice v).part).val
    s.unisonOffset v = if n < 2 then 0 else
      Int.tdiv (((s.param (s.voice v).part 14 / 2 ^ 4 : Nat) : Int) * (2 * ((s.voice v).unison.val : Int) - n + 1))
        ((n : Int) - 1))

/-- The computation of a pitch channel writes the oscillator's dynamic flag exactly as a clamp acts and raises its
sticky flag with it, unless the voice is TUNING: then the code is the override, or 0, and no flag changes (R54, R58). -/
def Obligations.RangeFlagsOfAComputation : Prop :=
  ∀ (s : State) (v : VoiceId) (b : Bool),
    let o := if b then oscB v else oscA v
    let k := s.compute (pitchChan o)
    let sum := s.pitchSum o
    let raw := rawCode (tget s.tun.anchors o) (clampInt 0 32767 sum)
    let clamped : Bool := decide (sum < 0) || decide (32767 < sum) || decide (raw < 0) || decide (65535 < raw)
    ((s.voice v).state = .tuning → k.after = s ∧
      (k.code, k.stamp) = match tget s.rfe.overrides o with
        | some e => (e.code, some e.stamp)
        | none => (0, none)) ∧
    ((s.voice v).state ≠ .tuning → (k.code.val : Int) = clampInt 0 65535 raw ∧ k.stamp = none ∧
      k.onset = some (s.voice v).onset ∧
      k.after.voice v =
        (if b then { s.voice v with dynB := clamped, stickyB := (s.voice v).stickyB || clamped }
          else { s.voice v with dynA := clamped, stickyA := (s.voice v).stickyA || clamped }) ∧
      ∀ w : VoiceId, w ≠ v → k.after.voice w = s.voice w)

/-- In RUN the areas lie apart, each position is a cell of its area, every request in flight has its cell, and the
store's operation is at a step of its own; outside RUN no request is in flight; every step keeps this (R151, R160, R162,
R179). While it holds, every step keeps the image equal to its sources — parameters, names, voices, knobs, trust masks —
but where the host writes common memory itself or has a PART_EXPORT written into it (R159, R191 to R194). -/
def Obligations.ImageStaysTrueToItsSources : Prop :=
  ∀ s t : State, s.layoutOk → step s = .next t →
    t.layoutOk ∧ (s.memoryOk → s.imageTrue → (∀ c, s.pending.head? = some c → ¬ s.writesFreely c) → t.imageTrue)

end
end

