-- ==== Sys2Proof/Laws/State.lean ====
section
/-! SUPPORT. One lemma for each field under each update of the state: what the update makes of its own field, and that
every other field stays.  No later proof needs to unfold a record update. -/

namespace Sys2Proof.Machine

variable (s : State)

/-! ### State.withMpa -/

@[simp] theorem State.withMpa_mpa (x : Mpa) : (s.withMpa x).mpa = x := rfl
@[simp] theorem State.withMpa_rqu (x : Mpa) : (s.withMpa x).rqu = s.rqu := rfl
@[simp] theorem State.withMpa_nrt (x : Mpa) : (s.withMpa x).nrt = s.nrt := rfl
@[simp] theorem State.withMpa_val (x : Mpa) : (s.withMpa x).val = s.val := rfl
@[simp] theorem State.withMpa_rfe (x : Mpa) : (s.withMpa x).rfe = s.rfe := rfl
@[simp] theorem State.withMpa_tun (x : Mpa) : (s.withMpa x).tun = s.tun := rfl
@[simp] theorem State.withMpa_prb (x : Mpa) : (s.withMpa x).prb = s.prb := rfl
@[simp] theorem State.withMpa_psc (x : Mpa) : (s.withMpa x).psc = s.psc := rfl
@[simp] theorem State.withMpa_pst (x : Mpa) : (s.withMpa x).pst = s.pst := rfl
@[simp] theorem State.withMpa_rpu (x : Mpa) : (s.withMpa x).rpu = s.rpu := rfl
@[simp] theorem State.withMpa_mem (x : Mpa) : (s.withMpa x).mem = s.mem := rfl
@[simp] theorem State.withMpa_flash (x : Mpa) : (s.withMpa x).flash = s.flash := rfl
@[simp] theorem State.withMpa_openUsed (x : Mpa) : (s.withMpa x).openUsed = s.openUsed := rfl
@[simp] theorem State.withMpa_pending (x : Mpa) : (s.withMpa x).pending = s.pending := rfl

/-! ### State.withNrt -/

@[simp] theorem State.withNrt_mpa (x : Nrt) : (s.withNrt x).mpa = s.mpa := rfl
@[simp] theorem State.withNrt_rqu (x : Nrt) : (s.withNrt x).rqu = s.rqu := rfl
@[simp] theorem State.withNrt_nrt (x : Nrt) : (s.withNrt x).nrt = x := rfl
@[simp] theorem State.withNrt_val (x : Nrt) : (s.withNrt x).val = s.val := rfl
@[simp] theorem State.withNrt_rfe (x : Nrt) : (s.withNrt x).rfe = s.rfe := rfl
@[simp] theorem State.withNrt_tun (x : Nrt) : (s.withNrt x).tun = s.tun := rfl
@[simp] theorem State.withNrt_prb (x : Nrt) : (s.withNrt x).prb = s.prb := rfl
@[simp] theorem State.withNrt_psc (x : Nrt) : (s.withNrt x).psc = s.psc := rfl
@[simp] theorem State.withNrt_pst (x : Nrt) : (s.withNrt x).pst = s.pst := rfl
@[simp] theorem State.withNrt_rpu (x : Nrt) : (s.withNrt x).rpu = s.rpu := rfl
@[simp] theorem State.withNrt_mem (x : Nrt) : (s.withNrt x).mem = s.mem := rfl
@[simp] theorem State.withNrt_flash (x : Nrt) : (s.withNrt x).flash = s.flash := rfl
@[simp] theorem State.withNrt_openUsed (x : Nrt) : (s.withNrt x).openUsed = s.openUsed := rfl
@[simp] theorem State.withNrt_pending (x : Nrt) : (s.withNrt x).pending = s.pending := rfl

/-! ### State.withVal -/

@[simp] theorem State.withVal_mpa (x : Val) : (s.withVal x).mpa = s.mpa := rfl
@[simp] theorem State.withVal_rqu (x : Val) : (s.withVal x).rqu = s.rqu := rfl
@[simp] theorem State.withVal_nrt (x : Val) : (s.withVal x).nrt = s.nrt := rfl
@[simp] theorem State.withVal_val (x : Val) : (s.withVal x).val = x := rfl
@[simp] theorem State.withVal_rfe (x : Val) : (s.withVal x).rfe = s.rfe := rfl
@[simp] theorem State.withVal_tun (x : Val) : (s.withVal x).tun = s.tun := rfl
@[simp] theorem State.withVal_prb (x : Val) : (s.withVal x).prb = s.prb := rfl
@[simp] theorem State.withVal_psc (x : Val) : (s.withVal x).psc = s.psc := rfl
@[simp] theorem State.withVal_pst (x : Val) : (s.withVal x).pst = s.pst := rfl
@[simp] theorem State.withVal_rpu (x : Val) : (s.withVal x).rpu = s.rpu := rfl
@[simp] theorem State.withVal_mem (x : Val) : (s.withVal x).mem = s.mem := rfl
@[simp] theorem State.withVal_flash (x : Val) : (s.withVal x).flash = s.flash := rfl
@[simp] theorem State.withVal_openUsed (x : Val) : (s.withVal x).openUsed = s.openUsed := rfl
@[simp] theorem State.withVal_pending (x : Val) : (s.withVal x).pending = s.pending := rfl

/-! ### State.withRfe -/

@[simp] theorem State.withRfe_mpa (x : Rfe) : (s.withRfe x).mpa = s.mpa := rfl
@[simp] theorem State.withRfe_rqu (x : Rfe) : (s.withRfe x).rqu = s.rqu := rfl
@[simp] theorem State.withRfe_nrt (x : Rfe) : (s.withRfe x).nrt = s.nrt := rfl
@[simp] theorem State.withRfe_val (x : Rfe) : (s.withRfe x).val = s.val := rfl
@[simp] theorem State.withRfe_rfe (x : Rfe) : (s.withRfe x).rfe = x := rfl
@[simp] theorem State.withRfe_tun (x : Rfe) : (s.withRfe x).tun = s.tun := rfl
@[simp] theorem State.withRfe_prb (x : Rfe) : (s.withRfe x).prb = s.prb := rfl
@[simp] theorem State.withRfe_psc (x : Rfe) : (s.withRfe x).psc = s.psc := rfl
@[simp] theorem State.withRfe_pst (x : Rfe) : (s.withRfe x).pst = s.pst := rfl
@[simp] theorem State.withRfe_rpu (x : Rfe) : (s.withRfe x).rpu = s.rpu := rfl
@[simp] theorem State.withRfe_mem (x : Rfe) : (s.withRfe x).mem = s.mem := rfl
@[simp] theorem State.withRfe_flash (x : Rfe) : (s.withRfe x).flash = s.flash := rfl
@[simp] theorem State.withRfe_openUsed (x : Rfe) : (s.withRfe x).openUsed = s.openUsed := rfl
@[simp] theorem State.withRfe_pending (x : Rfe) : (s.withRfe x).pending = s.pending := rfl

/-! ### State.withTun -/

@[simp] theorem State.withTun_mpa (x : Tun) : (s.withTun x).mpa = s.mpa := rfl
@[simp] theorem State.withTun_rqu (x : Tun) : (s.withTun x).rqu = s.rqu := rfl
@[simp] theorem State.withTun_nrt (x : Tun) : (s.withTun x).nrt = s.nrt := rfl
@[simp] theorem State.withTun_val (x : Tun) : (s.withTun x).val = s.val := rfl
@[simp] theorem State.withTun_rfe (x : Tun) : (s.withTun x).rfe = s.rfe := rfl
@[simp] theorem State.withTun_tun (x : Tun) : (s.withTun x).tun = x := rfl
@[simp] theorem State.withTun_prb (x : Tun) : (s.withTun x).prb = s.prb := rfl
@[simp] theorem State.withTun_psc (x : Tun) : (s.withTun x).psc = s.psc := rfl
@[simp] theorem State.withTun_pst (x : Tun) : (s.withTun x).pst = s.pst := rfl
@[simp] theorem State.withTun_rpu (x : Tun) : (s.withTun x).rpu = s.rpu := rfl
@[simp] theorem State.withTun_mem (x : Tun) : (s.withTun x).mem = s.mem := rfl
@[simp] theorem State.withTun_flash (x : Tun) : (s.withTun x).flash = s.flash := rfl
@[simp] theorem State.withTun_openUsed (x : Tun) : (s.withTun x).openUsed = s.openUsed := rfl
@[simp] theorem State.withTun_pending (x : Tun) : (s.withTun x).pending = s.pending := rfl

/-! ### State.withPrb -/

@[simp] theorem State.withPrb_mpa (x : Prb) : (s.withPrb x).mpa = s.mpa := rfl
@[simp] theorem State.withPrb_rqu (x : Prb) : (s.withPrb x).rqu = s.rqu := rfl
@[simp] theorem State.withPrb_nrt (x : Prb) : (s.withPrb x).nrt = s.nrt := rfl
@[simp] theorem State.withPrb_val (x : Prb) : (s.withPrb x).val = s.val := rfl
@[simp] theorem State.withPrb_rfe (x : Prb) : (s.withPrb x).rfe = s.rfe := rfl
@[simp] theorem State.withPrb_tun (x : Prb) : (s.withPrb x).tun = s.tun := rfl
@[simp] theorem State.withPrb_prb (x : Prb) : (s.withPrb x).prb = x := rfl
@[simp] theorem State.withPrb_psc (x : Prb) : (s.withPrb x).psc = s.psc := rfl
@[simp] theorem State.withPrb_pst (x : Prb) : (s.withPrb x).pst = s.pst := rfl
@[simp] theorem State.withPrb_rpu (x : Prb) : (s.withPrb x).rpu = s.rpu := rfl
@[simp] theorem State.withPrb_mem (x : Prb) : (s.withPrb x).mem = s.mem := rfl
@[simp] theorem State.withPrb_flash (x : Prb) : (s.withPrb x).flash = s.flash := rfl
@[simp] theorem State.withPrb_openUsed (x : Prb) : (s.withPrb x).openUsed = s.openUsed := rfl
@[simp] theorem State.withPrb_pending (x : Prb) : (s.withPrb x).pending = s.pending := rfl

/-! ### State.withPsc -/

@[simp] theorem State.withPsc_mpa (x : Psc) : (s.withPsc x).mpa = s.mpa := rfl
@[simp] theorem State.withPsc_rqu (x : Psc) : (s.withPsc x).rqu = s.rqu := rfl
@[simp] theorem State.withPsc_nrt (x : Psc) : (s.withPsc x).nrt = s.nrt := rfl
@[simp] theorem State.withPsc_val (x : Psc) : (s.withPsc x).val = s.val := rfl
@[simp] theorem State.withPsc_rfe (x : Psc) : (s.withPsc x).rfe = s.rfe := rfl
@[simp] theorem State.withPsc_tun (x : Psc) : (s.withPsc x).tun = s.tun := rfl
@[simp] theorem State.withPsc_prb (x : Psc) : (s.withPsc x).prb = s.prb := rfl
@[simp] theorem State.withPsc_psc (x : Psc) : (s.withPsc x).psc = x := rfl
@[simp] theorem State.withPsc_pst (x : Psc) : (s.withPsc x).pst = s.pst := rfl
@[simp] theorem State.withPsc_rpu (x : Psc) : (s.withPsc x).rpu = s.rpu := rfl
@[simp] theorem State.withPsc_mem (x : Psc) : (s.withPsc x).mem = s.mem := rfl
@[simp] theorem State.withPsc_flash (x : Psc) : (s.withPsc x).flash = s.flash := rfl
@[simp] theorem State.withPsc_openUsed (x : Psc) : (s.withPsc x).openUsed = s.openUsed := rfl
@[simp] theorem State.withPsc_pending (x : Psc) : (s.withPsc x).pending = s.pending := rfl

/-! ### State.withPst -/

@[simp] theorem State.withPst_mpa (x : Pst) : (s.withPst x).mpa = s.mpa := rfl
@[simp] theorem State.withPst_rqu (x : Pst) : (s.withPst x).rqu = s.rqu := rfl
@[simp] theorem State.withPst_nrt (x : Pst) : (s.withPst x).nrt = s.nrt := rfl
@[simp] theorem State.withPst_val (x : Pst) : (s.withPst x).val = s.val := rfl
@[simp] theorem State.withPst_rfe (x : Pst) : (s.withPst x).rfe = s.rfe := rfl
@[simp] theorem State.withPst_tun (x : Pst) : (s.withPst x).tun = s.tun := rfl
@[simp] theorem State.withPst_prb (x : Pst) : (s.withPst x).prb = s.prb := rfl
@[simp] theorem State.withPst_psc (x : Pst) : (s.withPst x).psc = s.psc := rfl
@[simp] theorem State.withPst_pst (x : Pst) : (s.withPst x).pst = x := rfl
@[simp] theorem State.withPst_rpu (x : Pst) : (s.withPst x).rpu = s.rpu := rfl
@[simp] theorem State.withPst_mem (x : Pst) : (s.withPst x).mem = s.mem := rfl
@[simp] theorem State.withPst_flash (x : Pst) : (s.withPst x).flash = s.flash := rfl
@[simp] theorem State.withPst_openUsed (x : Pst) : (s.withPst x).openUsed = s.openUsed := rfl
@[simp] theorem State.withPst_pending (x : Pst) : (s.withPst x).pending = s.pending := rfl

/-! ### State.withRpu -/

@[simp] theorem State.withRpu_mpa (x : Rpu) : (s.withRpu x).mpa = s.mpa := rfl
@[simp] theorem State.withRpu_rqu (x : Rpu) : (s.withRpu x).rqu = s.rqu := rfl
@[simp] theorem State.withRpu_nrt (x : Rpu) : (s.withRpu x).nrt = s.nrt := rfl
@[simp] theorem State.withRpu_val (x : Rpu) : (s.withRpu x).val = s.val := rfl
@[simp] theorem State.withRpu_rfe (x : Rpu) : (s.withRpu x).rfe = s.rfe := rfl
@[simp] theorem State.withRpu_tun (x : Rpu) : (s.withRpu x).tun = s.tun := rfl
@[simp] theorem State.withRpu_prb (x : Rpu) : (s.withRpu x).prb = s.prb := rfl
@[simp] theorem State.withRpu_psc (x : Rpu) : (s.withRpu x).psc = s.psc := rfl
@[simp] theorem State.withRpu_pst (x : Rpu) : (s.withRpu x).pst = s.pst := rfl
@[simp] theorem State.withRpu_rpu (x : Rpu) : (s.withRpu x).rpu = x := rfl
@[simp] theorem State.withRpu_mem (x : Rpu) : (s.withRpu x).mem = s.mem := rfl
@[simp] theorem State.withRpu_flash (x : Rpu) : (s.withRpu x).flash = s.flash := rfl
@[simp] theorem State.withRpu_openUsed (x : Rpu) : (s.withRpu x).openUsed = s.openUsed := rfl
@[simp] theorem State.withRpu_pending (x : Rpu) : (s.withRpu x).pending = s.pending := rfl

/-! ### State.withPending -/

@[simp] theorem State.withPending_mpa (q : List Instr) : (s.withPending q).mpa = s.mpa := rfl
@[simp] theorem State.withPending_rqu (q : List Instr) : (s.withPending q).rqu = s.rqu := rfl
@[simp] theorem State.withPending_nrt (q : List Instr) : (s.withPending q).nrt = s.nrt := rfl
@[simp] theorem State.withPending_val (q : List Instr) : (s.withPending q).val = s.val := rfl
@[simp] theorem State.withPending_rfe (q : List Instr) : (s.withPending q).rfe = s.rfe := rfl
@[simp] theorem State.withPending_tun (q : List Instr) : (s.withPending q).tun = s.tun := rfl
@[simp] theorem State.withPending_prb (q : List Instr) : (s.withPending q).prb = s.prb := rfl
@[simp] theorem State.withPending_psc (q : List Instr) : (s.withPending q).psc = s.psc := rfl
@[simp] theorem State.withPending_pst (q : List Instr) : (s.withPending q).pst = s.pst := rfl
@[simp] theorem State.withPending_rpu (q : List Instr) : (s.withPending q).rpu = s.rpu := rfl
@[simp] theorem State.withPending_mem (q : List Instr) : (s.withPending q).mem = s.mem := rfl
@[simp] theorem State.withPending_flash (q : List Instr) : (s.withPending q).flash = s.flash := rfl
@[simp] theorem State.withPending_openUsed (q : List Instr) : (s.withPending q).openUsed = s.openUsed := rfl
@[simp] theorem State.withPending_pending (q : List Instr) : (s.withPending q).pending = q := rfl

/-! ### State.poke -/

@[simp] theorem State.poke_mpa (a : Nat) (x : Byte) : (s.poke a x).mpa = s.mpa := by unfold State.poke; split <;> rfl
@[simp] theorem State.poke_rqu (a : Nat) (x : Byte) : (s.poke a x).rqu = s.rqu := by unfold State.poke; split <;> rfl
@[simp] theorem State.poke_nrt (a : Nat) (x : Byte) : (s.poke a x).nrt = s.nrt := by unfold State.poke; split <;> rfl
@[simp] theorem State.poke_val (a : Nat) (x : Byte) : (s.poke a x).val = s.val := by unfold State.poke; split <;> rfl
@[simp] theorem State.poke_rfe (a : Nat) (x : Byte) : (s.poke a x).rfe = s.rfe := by unfold State.poke; split <;> rfl
@[simp] theorem State.poke_tun (a : Nat) (x : Byte) : (s.poke a x).tun = s.tun := by unfold State.poke; split <;> rfl
@[simp] theorem State.poke_prb (a : Nat) (x : Byte) : (s.poke a x).prb = s.prb := by unfold State.poke; split <;> rfl
@[simp] theorem State.poke_psc (a : Nat) (x : Byte) : (s.poke a x).psc = s.psc := by unfold State.poke; split <;> rfl
@[simp] theorem State.poke_pst (a : Nat) (x : Byte) : (s.poke a x).pst = s.pst := by unfold State.poke; split <;> rfl
@[simp] theorem State.poke_rpu (a : Nat) (x : Byte) : (s.poke a x).rpu = s.rpu := by unfold State.poke; split <;> rfl
@[simp] theorem State.poke_flash (a : Nat) (x : Byte) : (s.poke a x).flash = s.flash := by unfold State.poke; split <;> rfl
@[simp] theorem State.poke_openUsed (a : Nat) (x : Byte) : (s.poke a x).openUsed = s.openUsed := by unfold State.poke; split <;> rfl
@[simp] theorem State.poke_pending (a : Nat) (x : Byte) : (s.poke a x).pending = s.pending := by unfold State.poke; split <;> rfl

/-! ### State.setFlash -/

@[simp] theorem State.setFlash_mpa (p : PageId) (off : Nat) (x : Byte) : (s.setFlash p off x).mpa = s.mpa := by unfold State.setFlash; split <;> rfl
@[simp] theorem State.setFlash_rqu (p : PageId) (off : Nat) (x : Byte) : (s.setFlash p off x).rqu = s.rqu := by unfold State.setFlash; split <;> rfl
@[simp] theorem State.setFlash_nrt (p : PageId) (off : Nat) (x : Byte) : (s.setFlash p off x).nrt = s.nrt := by unfold State.setFlash; split <;> rfl
@[simp] theorem State.setFlash_val (p : PageId) (off : Nat) (x : Byte) : (s.setFlash p off x).val = s.val := by unfold State.setFlash; split <;> rfl
@[simp] theorem State.setFlash_rfe (p : PageId) (off : Nat) (x : Byte) : (s.setFlash p off x).rfe = s.rfe := by unfold State.setFlash; split <;> rfl
@[simp] theorem State.setFlash_tun (p : PageId) (off : Nat) (x : Byte) : (s.setFlash p off x).tun = s.tun := by unfold State.setFlash; split <;> rfl
@[simp] theorem State.setFlash_prb (p : PageId) (off : Nat) (x : Byte) : (s.setFlash p off x).prb = s.prb := by unfold State.setFlash; split <;> rfl
@[simp] theorem State.setFlash_psc (p : PageId) (off : Nat) (x : Byte) : (s.setFlash p off x).psc = s.psc := by unfold State.setFlash; split <;> rfl
@[simp] theorem State.setFlash_pst (p : PageId) (off : Nat) (x : Byte) : (s.setFlash p off x).pst = s.pst := by unfold State.setFlash; split <;> rfl
@[simp] theorem State.setFlash_rpu (p : PageId) (off : Nat) (x : Byte) : (s.setFlash p off x).rpu = s.rpu := by unfold State.setFlash; split <;> rfl
@[simp] theorem State.setFlash_mem (p : PageId) (off : Nat) (x : Byte) : (s.setFlash p off x).mem = s.mem := by unfold State.setFlash; split <;> rfl
@[simp] theorem State.setFlash_openUsed (p : PageId) (off : Nat) (x : Byte) : (s.setFlash p off x).openUsed = s.openUsed := by unfold State.setFlash; split <;> rfl
@[simp] theorem State.setFlash_pending (p : PageId) (off : Nat) (x : Byte) : (s.setFlash p off x).pending = s.pending := by unfold State.setFlash; split <;> rfl

/-! ### State.blankPage -/

@[simp] theorem State.blankPage_mpa (p : PageId) : (s.blankPage p).mpa = s.mpa := rfl
@[simp] theorem State.blankPage_rqu (p : PageId) : (s.blankPage p).rqu = s.rqu := rfl
@[simp] theorem State.blankPage_nrt (p : PageId) : (s.blankPage p).nrt = s.nrt := rfl
@[simp] theorem State.blankPage_val (p : PageId) : (s.blankPage p).val = s.val := rfl
@[simp] theorem State.blankPage_rfe (p : PageId) : (s.blankPage p).rfe = s.rfe := rfl
@[simp] theorem State.blankPage_tun (p : PageId) : (s.blankPage p).tun = s.tun := rfl
@[simp] theorem State.blankPage_prb (p : PageId) : (s.blankPage p).prb = s.prb := rfl
@[simp] theorem State.blankPage_psc (p : PageId) : (s.blankPage p).psc = s.psc := rfl
@[simp] theorem State.blankPage_pst (p : PageId) : (s.blankPage p).pst = s.pst := rfl
@[simp] theorem State.blankPage_rpu (p : PageId) : (s.blankPage p).rpu = s.rpu := rfl
@[simp] theorem State.blankPage_mem (p : PageId) : (s.blankPage p).mem = s.mem := rfl
@[simp] theorem State.blankPage_openUsed (p : PageId) : (s.blankPage p).openUsed = s.openUsed := rfl
@[simp] theorem State.blankPage_pending (p : PageId) : (s.blankPage p).pending = s.pending := rfl

/-! ### State.setArea -/

@[simp] theorem State.setArea_mpa (n : AreaId) (a : Area) : (s.setArea n a).mpa = { s.mpa with areas := tset s.mpa.areas n (some a) } := rfl
@[simp] theorem State.setArea_rqu (n : AreaId) (a : Area) : (s.setArea n a).rqu = s.rqu := rfl
@[simp] theorem State.setArea_nrt (n : AreaId) (a : Area) : (s.setArea n a).nrt = s.nrt := rfl
@[simp] theorem State.setArea_val (n : AreaId) (a : Area) : (s.setArea n a).val = s.val := rfl
@[simp] theorem State.setArea_rfe (n : AreaId) (a : Area) : (s.setArea n a).rfe = s.rfe := rfl
@[simp] theorem State.setArea_tun (n : AreaId) (a : Area) : (s.setArea n a).tun = s.tun := rfl
@[simp] theorem State.setArea_prb (n : AreaId) (a : Area) : (s.setArea n a).prb = s.prb := rfl
@[simp] theorem State.setArea_psc (n : AreaId) (a : Area) : (s.setArea n a).psc = s.psc := rfl
@[simp] theorem State.setArea_pst (n : AreaId) (a : Area) : (s.setArea n a).pst = s.pst := rfl
@[simp] theorem State.setArea_rpu (n : AreaId) (a : Area) : (s.setArea n a).rpu = s.rpu := rfl
@[simp] theorem State.setArea_mem (n : AreaId) (a : Area) : (s.setArea n a).mem = s.mem := rfl
@[simp] theorem State.setArea_flash (n : AreaId) (a : Area) : (s.setArea n a).flash = s.flash := rfl
@[simp] theorem State.setArea_openUsed (n : AreaId) (a : Area) : (s.setArea n a).openUsed = s.openUsed := rfl
@[simp] theorem State.setArea_pending (n : AreaId) (a : Area) : (s.setArea n a).pending = s.pending := rfl

/-! ### State.attention -/

@[simp] theorem State.attention_mpa (n : AreaId) : (s.attention n).mpa = { s.mpa with summary := s.mpa.summary ||| BitVec.twoPow 9 n.val } := rfl
@[simp] theorem State.attention_rqu (n : AreaId) : (s.attention n).rqu = s.rqu := rfl
@[simp] theorem State.attention_nrt (n : AreaId) : (s.attention n).nrt = s.nrt := rfl
@[simp] theorem State.attention_val (n : AreaId) : (s.attention n).val = s.val := rfl
@[simp] theorem State.attention_rfe (n : AreaId) : (s.attention n).rfe = s.rfe := rfl
@[simp] theorem State.attention_tun (n : AreaId) : (s.attention n).tun = s.tun := rfl
@[simp] theorem State.attention_prb (n : AreaId) : (s.attention n).prb = s.prb := rfl
@[simp] theorem State.attention_psc (n : AreaId) : (s.attention n).psc = s.psc := rfl
@[simp] theorem State.attention_pst (n : AreaId) : (s.attention n).pst = s.pst := rfl
@[simp] theorem State.attention_rpu (n : AreaId) : (s.attention n).rpu = s.rpu := rfl
@[simp] theorem State.attention_mem (n : AreaId) : (s.attention n).mem = s.mem := rfl
@[simp] theorem State.attention_flash (n : AreaId) : (s.attention n).flash = s.flash := rfl
@[simp] theorem State.attention_openUsed (n : AreaId) : (s.attention n).openUsed = s.openUsed := rfl
@[simp] theorem State.attention_pending (n : AreaId) : (s.attention n).pending = s.pending := rfl

/-! ### State.stateChange -/

@[simp] theorem State.stateChange_mpa : s.stateChange.mpa = { s.mpa with summary := s.mpa.summary ||| BitVec.twoPow 9 8 } := rfl
@[simp] theorem State.stateChange_rqu : s.stateChange.rqu = s.rqu := rfl
@[simp] theorem State.stateChange_nrt : s.stateChange.nrt = s.nrt := rfl
@[simp] theorem State.stateChange_val : s.stateChange.val = s.val := rfl
@[simp] theorem State.stateChange_rfe : s.stateChange.rfe = s.rfe := rfl
@[simp] theorem State.stateChange_tun : s.stateChange.tun = s.tun := rfl
@[simp] theorem State.stateChange_prb : s.stateChange.prb = s.prb := rfl
@[simp] theorem State.stateChange_psc : s.stateChange.psc = s.psc := rfl
@[simp] theorem State.stateChange_pst : s.stateChange.pst = s.pst := rfl
@[simp] theorem State.stateChange_rpu : s.stateChange.rpu = s.rpu := rfl
@[simp] theorem State.stateChange_mem : s.stateChange.mem = s.mem := rfl
@[simp] theorem State.stateChange_flash : s.stateChange.flash = s.flash := rfl
@[simp] theorem State.stateChange_openUsed : s.stateChange.openUsed = s.openUsed := rfl
@[simp] theorem State.stateChange_pending : s.stateChange.pending = s.pending := rfl

/-! ### State.echo -/

@[simp] theorem State.echo_mpa (high : Bool) (data : Byte) : (s.echo high data).mpa = { s.mpa with summary := s.mpa.summary &&& ~~~(halfWord high data) } := rfl
@[simp] theorem State.echo_rqu (high : Bool) (data : Byte) : (s.echo high data).rqu = s.rqu := rfl
@[simp] theorem State.echo_nrt (high : Bool) (data : Byte) : (s.echo high data).nrt = s.nrt := rfl
@[simp] theorem State.echo_val (high : Bool) (data : Byte) : (s.echo high data).val = s.val := rfl
@[simp] theorem State.echo_rfe (high : Bool) (data : Byte) : (s.echo high data).rfe = s.rfe := rfl
@[simp] theorem State.echo_tun (high : Bool) (data : Byte) : (s.echo high data).tun = s.tun := rfl
@[simp] theorem State.echo_prb (high : Bool) (data : Byte) : (s.echo high data).prb = s.prb := rfl
@[simp] theorem State.echo_psc (high : Bool) (data : Byte) : (s.echo high data).psc = s.psc := rfl
@[simp] theorem State.echo_pst (high : Bool) (data : Byte) : (s.echo high data).pst = s.pst := rfl
@[simp] theorem State.echo_rpu (high : Bool) (data : Byte) : (s.echo high data).rpu = s.rpu := rfl
@[simp] theorem State.echo_mem (high : Bool) (data : Byte) : (s.echo high data).mem = s.mem := rfl
@[simp] theorem State.echo_flash (high : Bool) (data : Byte) : (s.echo high data).flash = s.flash := rfl
@[simp] theorem State.echo_openUsed (high : Bool) (data : Byte) : (s.echo high data).openUsed = s.openUsed := rfl
@[simp] theorem State.echo_pending (high : Bool) (data : Byte) : (s.echo high data).pending = s.pending := rfl

/-! ### State.setEnable -/

@[simp] theorem State.setEnable_rqu (high : Bool) (data : Byte) : (s.setEnable high data).rqu = s.rqu := rfl
@[simp] theorem State.setEnable_nrt (high : Bool) (data : Byte) : (s.setEnable high data).nrt = s.nrt := rfl
@[simp] theorem State.setEnable_val (high : Bool) (data : Byte) : (s.setEnable high data).val = s.val := rfl
@[simp] theorem State.setEnable_rfe (high : Bool) (data : Byte) : (s.setEnable high data).rfe = s.rfe := rfl
@[simp] theorem State.setEnable_tun (high : Bool) (data : Byte) : (s.setEnable high data).tun = s.tun := rfl
@[simp] theorem State.setEnable_prb (high : Bool) (data : Byte) : (s.setEnable high data).prb = s.prb := rfl
@[simp] theorem State.setEnable_psc (high : Bool) (data : Byte) : (s.setEnable high data).psc = s.psc := rfl
@[simp] theorem State.setEnable_pst (high : Bool) (data : Byte) : (s.setEnable high data).pst = s.pst := rfl
@[simp] theorem State.setEnable_rpu (high : Bool) (data : Byte) : (s.setEnable high data).rpu = s.rpu := rfl
@[simp] theorem State.setEnable_mem (high : Bool) (data : Byte) : (s.setEnable high data).mem = s.mem := rfl
@[simp] theorem State.setEnable_flash (high : Bool) (data : Byte) : (s.setEnable high data).flash = s.flash := rfl
@[simp] theorem State.setEnable_openUsed (high : Bool) (data : Byte) : (s.setEnable high data).openUsed = s.openUsed := rfl
@[simp] theorem State.setEnable_pending (high : Bool) (data : Byte) : (s.setEnable high data).pending = s.pending := rfl

/-! ### State.clearChosen -/

@[simp] theorem State.clearChosen_mpa (c : Chosen) : (s.clearChosen c).mpa = s.mpa := rfl
@[simp] theorem State.clearChosen_rqu (c : Chosen) : (s.clearChosen c).rqu = s.rqu := rfl
@[simp] theorem State.clearChosen_nrt (c : Chosen) : (s.clearChosen c).nrt = s.nrt := rfl
@[simp] theorem State.clearChosen_val (c : Chosen) : (s.clearChosen c).val = s.val := rfl
@[simp] theorem State.clearChosen_rfe (c : Chosen) : (s.clearChosen c).rfe = s.rfe := rfl
@[simp] theorem State.clearChosen_tun (c : Chosen) : (s.clearChosen c).tun = s.tun := rfl
@[simp] theorem State.clearChosen_prb (c : Chosen) : (s.clearChosen c).prb = s.prb := rfl
@[simp] theorem State.clearChosen_psc (c : Chosen) : (s.clearChosen c).psc = s.psc := rfl
@[simp] theorem State.clearChosen_pst (c : Chosen) : (s.clearChosen c).pst = s.pst := rfl
@[simp] theorem State.clearChosen_mem (c : Chosen) : (s.clearChosen c).mem = s.mem := rfl
@[simp] theorem State.clearChosen_flash (c : Chosen) : (s.clearChosen c).flash = s.flash := rfl
@[simp] theorem State.clearChosen_openUsed (c : Chosen) : (s.clearChosen c).openUsed = s.openUsed := rfl
@[simp] theorem State.clearChosen_pending (c : Chosen) : (s.clearChosen c).pending = s.pending := rfl

/-! ### State.clearReports -/

@[simp] theorem State.clearReports_mpa : s.clearReports.mpa = s.mpa := rfl
@[simp] theorem State.clearReports_rqu : s.clearReports.rqu = s.rqu := rfl
@[simp] theorem State.clearReports_nrt : s.clearReports.nrt = s.nrt := rfl
@[simp] theorem State.clearReports_val : s.clearReports.val = s.val := rfl
@[simp] theorem State.clearReports_rfe : s.clearReports.rfe = s.rfe := rfl
@[simp] theorem State.clearReports_tun : s.clearReports.tun = s.tun := rfl
@[simp] theorem State.clearReports_prb : s.clearReports.prb = s.prb := rfl
@[simp] theorem State.clearReports_psc : s.clearReports.psc = s.psc := rfl
@[simp] theorem State.clearReports_pst : s.clearReports.pst = s.pst := rfl
@[simp] theorem State.clearReports_mem : s.clearReports.mem = s.mem := rfl
@[simp] theorem State.clearReports_flash : s.clearReports.flash = s.flash := rfl
@[simp] theorem State.clearReports_openUsed : s.clearReports.openUsed = s.openUsed := rfl
@[simp] theorem State.clearReports_pending : s.clearReports.pending = s.pending := rfl

/-! ### State.push -/

@[simp] theorem State.push_mpa (n : ChanId) : (s.push n).mpa = s.mpa := by unfold State.push; split <;> rfl
@[simp] theorem State.push_rqu (n : ChanId) : (s.push n).rqu = s.rqu := by unfold State.push; split <;> rfl
@[simp] theorem State.push_nrt (n : ChanId) : (s.push n).nrt = s.nrt := by unfold State.push; split <;> rfl
@[simp] theorem State.push_val (n : ChanId) : (s.push n).val = s.val := by unfold State.push; split <;> rfl
@[simp] theorem State.push_tun (n : ChanId) : (s.push n).tun = s.tun := by unfold State.push; split <;> rfl
@[simp] theorem State.push_prb (n : ChanId) : (s.push n).prb = s.prb := by unfold State.push; split <;> rfl
@[simp] theorem State.push_psc (n : ChanId) : (s.push n).psc = s.psc := by unfold State.push; split <;> rfl
@[simp] theorem State.push_pst (n : ChanId) : (s.push n).pst = s.pst := by unfold State.push; split <;> rfl
@[simp] theorem State.push_rpu (n : ChanId) : (s.push n).rpu = s.rpu := by unfold State.push; split <;> rfl
@[simp] theorem State.push_mem (n : ChanId) : (s.push n).mem = s.mem := by unfold State.push; split <;> rfl
@[simp] theorem State.push_flash (n : ChanId) : (s.push n).flash = s.flash := by unfold State.push; split <;> rfl
@[simp] theorem State.push_openUsed (n : ChanId) : (s.push n).openUsed = s.openUsed := by unfold State.push; split <;> rfl
@[simp] theorem State.push_pending (n : ChanId) : (s.push n).pending = s.pending := by unfold State.push; split <;> rfl

/-! ### State.clearOverride -/

@[simp] theorem State.clearOverride_mpa (o : OscId) : (s.clearOverride o).mpa = s.mpa := rfl
@[simp] theorem State.clearOverride_rqu (o : OscId) : (s.clearOverride o).rqu = s.rqu := rfl
@[simp] theorem State.clearOverride_nrt (o : OscId) : (s.clearOverride o).nrt = s.nrt := rfl
@[simp] theorem State.clearOverride_val (o : OscId) : (s.clearOverride o).val = s.val := rfl
@[simp] theorem State.clearOverride_rfe (o : OscId) : (s.clearOverride o).rfe = { s.rfe with overrides := tset s.rfe.overrides o none } := rfl
@[simp] theorem State.clearOverride_tun (o : OscId) : (s.clearOverride o).tun = s.tun := rfl
@[simp] theorem State.clearOverride_prb (o : OscId) : (s.clearOverride o).prb = s.prb := rfl
@[simp] theorem State.clearOverride_psc (o : OscId) : (s.clearOverride o).psc = s.psc := rfl
@[simp] theorem State.clearOverride_pst (o : OscId) : (s.clearOverride o).pst = s.pst := rfl
@[simp] theorem State.clearOverride_rpu (o : OscId) : (s.clearOverride o).rpu = s.rpu := rfl
@[simp] theorem State.clearOverride_mem (o : OscId) : (s.clearOverride o).mem = s.mem := rfl
@[simp] theorem State.clearOverride_flash (o : OscId) : (s.clearOverride o).flash = s.flash := rfl
@[simp] theorem State.clearOverride_openUsed (o : OscId) : (s.clearOverride o).openUsed = s.openUsed := rfl
@[simp] theorem State.clearOverride_pending (o : OscId) : (s.clearOverride o).pending = s.pending := rfl

/-! ### State.restartRefresh -/

@[simp] theorem State.restartRefresh_mpa : s.restartRefresh.mpa = s.mpa := rfl
@[simp] theorem State.restartRefresh_rqu : s.restartRefresh.rqu = s.rqu := rfl
@[simp] theorem State.restartRefresh_nrt : s.restartRefresh.nrt = s.nrt := rfl
@[simp] theorem State.restartRefresh_val : s.restartRefresh.val = s.val := rfl
@[simp] theorem State.restartRefresh_tun : s.restartRefresh.tun = s.tun := rfl
@[simp] theorem State.restartRefresh_prb : s.restartRefresh.prb = s.prb := rfl
@[simp] theorem State.restartRefresh_psc : s.restartRefresh.psc = s.psc := rfl
@[simp] theorem State.restartRefresh_pst : s.restartRefresh.pst = s.pst := rfl
@[simp] theorem State.restartRefresh_rpu : s.restartRefresh.rpu = s.rpu := rfl
@[simp] theorem State.restartRefresh_mem : s.restartRefresh.mem = s.mem := rfl
@[simp] theorem State.restartRefresh_flash : s.restartRefresh.flash = s.flash := rfl
@[simp] theorem State.restartRefresh_openUsed : s.restartRefresh.openUsed = s.openUsed := rfl
@[simp] theorem State.restartRefresh_pending : s.restartRefresh.pending = s.pending := rfl

/-! ### State.putChan -/

@[simp] theorem State.putChan_mpa (c : CardId) (m : MeasChan) : (s.putChan c m).mpa = s.mpa := rfl
@[simp] theorem State.putChan_rqu (c : CardId) (m : MeasChan) : (s.putChan c m).rqu = s.rqu := rfl
@[simp] theorem State.putChan_nrt (c : CardId) (m : MeasChan) : (s.putChan c m).nrt = s.nrt := rfl
@[simp] theorem State.putChan_val (c : CardId) (m : MeasChan) : (s.putChan c m).val = s.val := rfl
@[simp] theorem State.putChan_rfe (c : CardId) (m : MeasChan) : (s.putChan c m).rfe = s.rfe := rfl
@[simp] theorem State.putChan_tun (c : CardId) (m : MeasChan) : (s.putChan c m).tun = { s.tun with chans := tset s.tun.chans c m } := rfl
@[simp] theorem State.putChan_prb (c : CardId) (m : MeasChan) : (s.putChan c m).prb = s.prb := rfl
@[simp] theorem State.putChan_psc (c : CardId) (m : MeasChan) : (s.putChan c m).psc = s.psc := rfl
@[simp] theorem State.putChan_pst (c : CardId) (m : MeasChan) : (s.putChan c m).pst = s.pst := rfl
@[simp] theorem State.putChan_rpu (c : CardId) (m : MeasChan) : (s.putChan c m).rpu = s.rpu := rfl
@[simp] theorem State.putChan_mem (c : CardId) (m : MeasChan) : (s.putChan c m).mem = s.mem := rfl
@[simp] theorem State.putChan_flash (c : CardId) (m : MeasChan) : (s.putChan c m).flash = s.flash := rfl
@[simp] theorem State.putChan_openUsed (c : CardId) (m : MeasChan) : (s.putChan c m).openUsed = s.openUsed := rfl
@[simp] theorem State.putChan_pending (c : CardId) (m : MeasChan) : (s.putChan c m).pending = s.pending := rfl

/-! ### State.putJob -/

@[simp] theorem State.putJob_mpa (j : Option TuneJob) : (s.putJob j).mpa = s.mpa := rfl
@[simp] theorem State.putJob_rqu (j : Option TuneJob) : (s.putJob j).rqu = s.rqu := rfl
@[simp] theorem State.putJob_nrt (j : Option TuneJob) : (s.putJob j).nrt = s.nrt := rfl
@[simp] theorem State.putJob_val (j : Option TuneJob) : (s.putJob j).val = s.val := rfl
@[simp] theorem State.putJob_rfe (j : Option TuneJob) : (s.putJob j).rfe = s.rfe := rfl
@[simp] theorem State.putJob_tun (j : Option TuneJob) : (s.putJob j).tun = { s.tun with job := j } := rfl
@[simp] theorem State.putJob_prb (j : Option TuneJob) : (s.putJob j).prb = s.prb := rfl
@[simp] theorem State.putJob_psc (j : Option TuneJob) : (s.putJob j).psc = s.psc := rfl
@[simp] theorem State.putJob_pst (j : Option TuneJob) : (s.putJob j).pst = s.pst := rfl
@[simp] theorem State.putJob_rpu (j : Option TuneJob) : (s.putJob j).rpu = s.rpu := rfl
@[simp] theorem State.putJob_mem (j : Option TuneJob) : (s.putJob j).mem = s.mem := rfl
@[simp] theorem State.putJob_flash (j : Option TuneJob) : (s.putJob j).flash = s.flash := rfl
@[simp] theorem State.putJob_openUsed (j : Option TuneJob) : (s.putJob j).openUsed = s.openUsed := rfl
@[simp] theorem State.putJob_pending (j : Option TuneJob) : (s.putJob j).pending = s.pending := rfl

/-! ### State.putBasis -/

@[simp] theorem State.putBasis_mpa (t : Nat) : (s.putBasis t).mpa = s.mpa := rfl
@[simp] theorem State.putBasis_rqu (t : Nat) : (s.putBasis t).rqu = s.rqu := rfl
@[simp] theorem State.putBasis_nrt (t : Nat) : (s.putBasis t).nrt = s.nrt := rfl
@[simp] theorem State.putBasis_val (t : Nat) : (s.putBasis t).val = s.val := rfl
@[simp] theorem State.putBasis_rfe (t : Nat) : (s.putBasis t).rfe = s.rfe := rfl
@[simp] theorem State.putBasis_tun (t : Nat) : (s.putBasis t).tun = { s.tun with basis := some t } := rfl
@[simp] theorem State.putBasis_prb (t : Nat) : (s.putBasis t).prb = s.prb := rfl
@[simp] theorem State.putBasis_psc (t : Nat) : (s.putBasis t).psc = s.psc := rfl
@[simp] theorem State.putBasis_pst (t : Nat) : (s.putBasis t).pst = s.pst := rfl
@[simp] theorem State.putBasis_rpu (t : Nat) : (s.putBasis t).rpu = s.rpu := rfl
@[simp] theorem State.putBasis_mem (t : Nat) : (s.putBasis t).mem = s.mem := rfl
@[simp] theorem State.putBasis_flash (t : Nat) : (s.putBasis t).flash = s.flash := rfl
@[simp] theorem State.putBasis_openUsed (t : Nat) : (s.putBasis t).openUsed = s.openUsed := rfl
@[simp] theorem State.putBasis_pending (t : Nat) : (s.putBasis t).pending = s.pending := rfl

/-! ### State.putTable -/

@[simp] theorem State.putTable_mpa (o : OscId) (t : Vector Code 9) : (s.putTable o t).mpa = s.mpa := rfl
@[simp] theorem State.putTable_rqu (o : OscId) (t : Vector Code 9) : (s.putTable o t).rqu = s.rqu := rfl
@[simp] theorem State.putTable_nrt (o : OscId) (t : Vector Code 9) : (s.putTable o t).nrt = s.nrt := rfl
@[simp] theorem State.putTable_val (o : OscId) (t : Vector Code 9) : (s.putTable o t).val = s.val := rfl
@[simp] theorem State.putTable_rfe (o : OscId) (t : Vector Code 9) : (s.putTable o t).rfe = s.rfe := rfl
@[simp] theorem State.putTable_tun (o : OscId) (t : Vector Code 9) : (s.putTable o t).tun = { s.tun with anchors := tset s.tun.anchors o t } := rfl
@[simp] theorem State.putTable_prb (o : OscId) (t : Vector Code 9) : (s.putTable o t).prb = s.prb := rfl
@[simp] theorem State.putTable_psc (o : OscId) (t : Vector Code 9) : (s.putTable o t).psc = s.psc := rfl
@[simp] theorem State.putTable_pst (o : OscId) (t : Vector Code 9) : (s.putTable o t).pst = s.pst := rfl
@[simp] theorem State.putTable_rpu (o : OscId) (t : Vector Code 9) : (s.putTable o t).rpu = s.rpu := rfl
@[simp] theorem State.putTable_mem (o : OscId) (t : Vector Code 9) : (s.putTable o t).mem = s.mem := rfl
@[simp] theorem State.putTable_flash (o : OscId) (t : Vector Code 9) : (s.putTable o t).flash = s.flash := rfl
@[simp] theorem State.putTable_openUsed (o : OscId) (t : Vector Code 9) : (s.putTable o t).openUsed = s.openUsed := rfl
@[simp] theorem State.putTable_pending (o : OscId) (t : Vector Code 9) : (s.putTable o t).pending = s.pending := rfl

/-! ### State.putKnob -/

@[simp] theorem State.putKnob_mpa (i : KnobId) (k : Knob) : (s.putKnob i k).mpa = s.mpa := rfl
@[simp] theorem State.putKnob_rqu (i : KnobId) (k : Knob) : (s.putKnob i k).rqu = s.rqu := rfl
@[simp] theorem State.putKnob_nrt (i : KnobId) (k : Knob) : (s.putKnob i k).nrt = s.nrt := rfl
@[simp] theorem State.putKnob_val (i : KnobId) (k : Knob) : (s.putKnob i k).val = s.val := rfl
@[simp] theorem State.putKnob_rfe (i : KnobId) (k : Knob) : (s.putKnob i k).rfe = s.rfe := rfl
@[simp] theorem State.putKnob_tun (i : KnobId) (k : Knob) : (s.putKnob i k).tun = s.tun := rfl
@[simp] theorem State.putKnob_prb (i : KnobId) (k : Knob) : (s.putKnob i k).prb = s.prb := rfl
@[simp] theorem State.putKnob_psc (i : KnobId) (k : Knob) : (s.putKnob i k).psc = { s.psc with knobs := tset s.psc.knobs i k } := rfl
@[simp] theorem State.putKnob_pst (i : KnobId) (k : Knob) : (s.putKnob i k).pst = s.pst := rfl
@[simp] theorem State.putKnob_rpu (i : KnobId) (k : Knob) : (s.putKnob i k).rpu = s.rpu := rfl
@[simp] theorem State.putKnob_mem (i : KnobId) (k : Knob) : (s.putKnob i k).mem = s.mem := rfl
@[simp] theorem State.putKnob_flash (i : KnobId) (k : Knob) : (s.putKnob i k).flash = s.flash := rfl
@[simp] theorem State.putKnob_openUsed (i : KnobId) (k : Knob) : (s.putKnob i k).openUsed = s.openUsed := rfl
@[simp] theorem State.putKnob_pending (i : KnobId) (k : Knob) : (s.putKnob i k).pending = s.pending := rfl

/-! ### State.putSwitchFunc -/

@[simp] theorem State.putSwitchFunc_mpa (j : SwitchId) (f : SwitchFunc) : (s.putSwitchFunc j f).mpa = s.mpa := rfl
@[simp] theorem State.putSwitchFunc_rqu (j : SwitchId) (f : SwitchFunc) : (s.putSwitchFunc j f).rqu = s.rqu := rfl
@[simp] theorem State.putSwitchFunc_nrt (j : SwitchId) (f : SwitchFunc) : (s.putSwitchFunc j f).nrt = s.nrt := rfl
@[simp] theorem State.putSwitchFunc_val (j : SwitchId) (f : SwitchFunc) : (s.putSwitchFunc j f).val = s.val := rfl
@[simp] theorem State.putSwitchFunc_rfe (j : SwitchId) (f : SwitchFunc) : (s.putSwitchFunc j f).rfe = s.rfe := rfl
@[simp] theorem State.putSwitchFunc_tun (j : SwitchId) (f : SwitchFunc) : (s.putSwitchFunc j f).tun = s.tun := rfl
@[simp] theorem State.putSwitchFunc_prb (j : SwitchId) (f : SwitchFunc) : (s.putSwitchFunc j f).prb = s.prb := rfl
@[simp] theorem State.putSwitchFunc_pst (j : SwitchId) (f : SwitchFunc) : (s.putSwitchFunc j f).pst = s.pst := rfl
@[simp] theorem State.putSwitchFunc_rpu (j : SwitchId) (f : SwitchFunc) : (s.putSwitchFunc j f).rpu = s.rpu := rfl
@[simp] theorem State.putSwitchFunc_mem (j : SwitchId) (f : SwitchFunc) : (s.putSwitchFunc j f).mem = s.mem := rfl
@[simp] theorem State.putSwitchFunc_flash (j : SwitchId) (f : SwitchFunc) : (s.putSwitchFunc j f).flash = s.flash := rfl
@[simp] theorem State.putSwitchFunc_openUsed (j : SwitchId) (f : SwitchFunc) : (s.putSwitchFunc j f).openUsed = s.openUsed := rfl
@[simp] theorem State.putSwitchFunc_pending (j : SwitchId) (f : SwitchFunc) : (s.putSwitchFunc j f).pending = s.pending := rfl

/-! ### State.putVoicing -/

@[simp] theorem State.putVoicing_mpa (p : Part) (y : Voicing) : (s.putVoicing p y).mpa = s.mpa := rfl
@[simp] theorem State.putVoicing_rqu (p : Part) (y : Voicing) : (s.putVoicing p y).rqu = s.rqu := rfl
@[simp] theorem State.putVoicing_nrt (p : Part) (y : Voicing) : (s.putVoicing p y).nrt = s.nrt := rfl
@[simp] theorem State.putVoicing_val (p : Part) (y : Voicing) : (s.putVoicing p y).val = s.val := rfl
@[simp] theorem State.putVoicing_rfe (p : Part) (y : Voicing) : (s.putVoicing p y).rfe = s.rfe := rfl
@[simp] theorem State.putVoicing_tun (p : Part) (y : Voicing) : (s.putVoicing p y).tun = s.tun := rfl
@[simp] theorem State.putVoicing_prb (p : Part) (y : Voicing) : (s.putVoicing p y).prb = { s.prb with voicing := s.prb.voicing.put p y } := rfl
@[simp] theorem State.putVoicing_psc (p : Part) (y : Voicing) : (s.putVoicing p y).psc = s.psc := rfl
@[simp] theorem State.putVoicing_pst (p : Part) (y : Voicing) : (s.putVoicing p y).pst = s.pst := rfl
@[simp] theorem State.putVoicing_rpu (p : Part) (y : Voicing) : (s.putVoicing p y).rpu = s.rpu := rfl
@[simp] theorem State.putVoicing_mem (p : Part) (y : Voicing) : (s.putVoicing p y).mem = s.mem := rfl
@[simp] theorem State.putVoicing_flash (p : Part) (y : Voicing) : (s.putVoicing p y).flash = s.flash := rfl
@[simp] theorem State.putVoicing_openUsed (p : Part) (y : Voicing) : (s.putVoicing p y).openUsed = s.openUsed := rfl
@[simp] theorem State.putVoicing_pending (p : Part) (y : Voicing) : (s.putVoicing p y).pending = s.pending := rfl

/-! ### State.putEdit -/

@[simp] theorem State.putEdit_mpa (p : Part) : (s.putEdit p).mpa = s.mpa := rfl
@[simp] theorem State.putEdit_rqu (p : Part) : (s.putEdit p).rqu = s.rqu := rfl
@[simp] theorem State.putEdit_nrt (p : Part) : (s.putEdit p).nrt = s.nrt := rfl
@[simp] theorem State.putEdit_val (p : Part) : (s.putEdit p).val = s.val := rfl
@[simp] theorem State.putEdit_rfe (p : Part) : (s.putEdit p).rfe = s.rfe := rfl
@[simp] theorem State.putEdit_tun (p : Part) : (s.putEdit p).tun = s.tun := rfl
@[simp] theorem State.putEdit_prb (p : Part) : (s.putEdit p).prb = { s.prb with edit := p } := rfl
@[simp] theorem State.putEdit_psc (p : Part) : (s.putEdit p).psc = s.psc := rfl
@[simp] theorem State.putEdit_pst (p : Part) : (s.putEdit p).pst = s.pst := rfl
@[simp] theorem State.putEdit_rpu (p : Part) : (s.putEdit p).rpu = s.rpu := rfl
@[simp] theorem State.putEdit_mem (p : Part) : (s.putEdit p).mem = s.mem := rfl
@[simp] theorem State.putEdit_flash (p : Part) : (s.putEdit p).flash = s.flash := rfl
@[simp] theorem State.putEdit_openUsed (p : Part) : (s.putEdit p).openUsed = s.openUsed := rfl
@[simp] theorem State.putEdit_pending (p : Part) : (s.putEdit p).pending = s.pending := rfl

/-! ### State.putHeld -/

@[simp] theorem State.putHeld_mpa (p : Part) (l : List HeldKey) : (s.putHeld p l).mpa = s.mpa := rfl
@[simp] theorem State.putHeld_rqu (p : Part) (l : List HeldKey) : (s.putHeld p l).rqu = s.rqu := rfl
@[simp] theorem State.putHeld_nrt (p : Part) (l : List HeldKey) : (s.putHeld p l).nrt = { s.nrt with held := s.nrt.held.put p l } := rfl
@[simp] theorem State.putHeld_val (p : Part) (l : List HeldKey) : (s.putHeld p l).val = s.val := rfl
@[simp] theorem State.putHeld_rfe (p : Part) (l : List HeldKey) : (s.putHeld p l).rfe = s.rfe := rfl
@[simp] theorem State.putHeld_tun (p : Part) (l : List HeldKey) : (s.putHeld p l).tun = s.tun := rfl
@[simp] theorem State.putHeld_prb (p : Part) (l : List HeldKey) : (s.putHeld p l).prb = s.prb := rfl
@[simp] theorem State.putHeld_psc (p : Part) (l : List HeldKey) : (s.putHeld p l).psc = s.psc := rfl
@[simp] theorem State.putHeld_pst (p : Part) (l : List HeldKey) : (s.putHeld p l).pst = s.pst := rfl
@[simp] theorem State.putHeld_rpu (p : Part) (l : List HeldKey) : (s.putHeld p l).rpu = s.rpu := rfl
@[simp] theorem State.putHeld_mem (p : Part) (l : List HeldKey) : (s.putHeld p l).mem = s.mem := rfl
@[simp] theorem State.putHeld_flash (p : Part) (l : List HeldKey) : (s.putHeld p l).flash = s.flash := rfl
@[simp] theorem State.putHeld_openUsed (p : Part) (l : List HeldKey) : (s.putHeld p l).openUsed = s.openUsed := rfl
@[simp] theorem State.putHeld_pending (p : Part) (l : List HeldKey) : (s.putHeld p l).pending = s.pending := rfl

/-! ### State.putPage -/

@[simp] theorem State.putPage_mpa (p : PageId) (e : PageEntry) : (s.putPage p e).mpa = s.mpa := rfl
@[simp] theorem State.putPage_rqu (p : PageId) (e : PageEntry) : (s.putPage p e).rqu = s.rqu := rfl
@[simp] theorem State.putPage_nrt (p : PageId) (e : PageEntry) : (s.putPage p e).nrt = s.nrt := rfl
@[simp] theorem State.putPage_val (p : PageId) (e : PageEntry) : (s.putPage p e).val = s.val := rfl
@[simp] theorem State.putPage_rfe (p : PageId) (e : PageEntry) : (s.putPage p e).rfe = s.rfe := rfl
@[simp] theorem State.putPage_tun (p : PageId) (e : PageEntry) : (s.putPage p e).tun = s.tun := rfl
@[simp] theorem State.putPage_prb (p : PageId) (e : PageEntry) : (s.putPage p e).prb = s.prb := rfl
@[simp] theorem State.putPage_psc (p : PageId) (e : PageEntry) : (s.putPage p e).psc = s.psc := rfl
@[simp] theorem State.putPage_pst (p : PageId) (e : PageEntry) : (s.putPage p e).pst = { s.pst with pages := tset s.pst.pages p e } := rfl
@[simp] theorem State.putPage_rpu (p : PageId) (e : PageEntry) : (s.putPage p e).rpu = s.rpu := rfl
@[simp] theorem State.putPage_mem (p : PageId) (e : PageEntry) : (s.putPage p e).mem = s.mem := rfl
@[simp] theorem State.putPage_flash (p : PageId) (e : PageEntry) : (s.putPage p e).flash = s.flash := rfl
@[simp] theorem State.putPage_openUsed (p : PageId) (e : PageEntry) : (s.putPage p e).openUsed = s.openUsed := rfl
@[simp] theorem State.putPage_pending (p : PageId) (e : PageEntry) : (s.putPage p e).pending = s.pending := rfl

/-! ### State.putIndex -/

@[simp] theorem State.putIndex_mpa (k : SlotId) (l : Loc) : (s.putIndex k l).mpa = s.mpa := rfl
@[simp] theorem State.putIndex_rqu (k : SlotId) (l : Loc) : (s.putIndex k l).rqu = s.rqu := rfl
@[simp] theorem State.putIndex_nrt (k : SlotId) (l : Loc) : (s.putIndex k l).nrt = s.nrt := rfl
@[simp] theorem State.putIndex_val (k : SlotId) (l : Loc) : (s.putIndex k l).val = s.val := rfl
@[simp] theorem State.putIndex_rfe (k : SlotId) (l : Loc) : (s.putIndex k l).rfe = s.rfe := rfl
@[simp] theorem State.putIndex_tun (k : SlotId) (l : Loc) : (s.putIndex k l).tun = s.tun := rfl
@[simp] theorem State.putIndex_prb (k : SlotId) (l : Loc) : (s.putIndex k l).prb = s.prb := rfl
@[simp] theorem State.putIndex_psc (k : SlotId) (l : Loc) : (s.putIndex k l).psc = s.psc := rfl
@[simp] theorem State.putIndex_pst (k : SlotId) (l : Loc) : (s.putIndex k l).pst = { s.pst with index := tset s.pst.index k (some l) } := rfl
@[simp] theorem State.putIndex_rpu (k : SlotId) (l : Loc) : (s.putIndex k l).rpu = s.rpu := rfl
@[simp] theorem State.putIndex_mem (k : SlotId) (l : Loc) : (s.putIndex k l).mem = s.mem := rfl
@[simp] theorem State.putIndex_flash (k : SlotId) (l : Loc) : (s.putIndex k l).flash = s.flash := rfl
@[simp] theorem State.putIndex_openUsed (k : SlotId) (l : Loc) : (s.putIndex k l).openUsed = s.openUsed := rfl
@[simp] theorem State.putIndex_pending (k : SlotId) (l : Loc) : (s.putIndex k l).pending = s.pending := rfl

/-! ### State.putStep -/

@[simp] theorem State.putStep_mpa (st : Option FlashStep) : (s.putStep st).mpa = s.mpa := rfl
@[simp] theorem State.putStep_rqu (st : Option FlashStep) : (s.putStep st).rqu = s.rqu := rfl
@[simp] theorem State.putStep_nrt (st : Option FlashStep) : (s.putStep st).nrt = s.nrt := rfl
@[simp] theorem State.putStep_val (st : Option FlashStep) : (s.putStep st).val = s.val := rfl
@[simp] theorem State.putStep_rfe (st : Option FlashStep) : (s.putStep st).rfe = s.rfe := rfl
@[simp] theorem State.putStep_tun (st : Option FlashStep) : (s.putStep st).tun = s.tun := rfl
@[simp] theorem State.putStep_prb (st : Option FlashStep) : (s.putStep st).prb = s.prb := rfl
@[simp] theorem State.putStep_psc (st : Option FlashStep) : (s.putStep st).psc = s.psc := rfl
@[simp] theorem State.putStep_pst (st : Option FlashStep) : (s.putStep st).pst = { s.pst with step := st } := rfl
@[simp] theorem State.putStep_rpu (st : Option FlashStep) : (s.putStep st).rpu = s.rpu := rfl
@[simp] theorem State.putStep_mem (st : Option FlashStep) : (s.putStep st).mem = s.mem := rfl
@[simp] theorem State.putStep_flash (st : Option FlashStep) : (s.putStep st).flash = s.flash := rfl
@[simp] theorem State.putStep_openUsed (st : Option FlashStep) : (s.putStep st).openUsed = s.openUsed := rfl
@[simp] theorem State.putStep_pending (st : Option FlashStep) : (s.putStep st).pending = s.pending := rfl

/-! ### State.putService -/

@[simp] theorem State.putService_mpa (svc : Option Service) : (s.putService svc).mpa = s.mpa := rfl
@[simp] theorem State.putService_rqu (svc : Option Service) : (s.putService svc).rqu = s.rqu := rfl
@[simp] theorem State.putService_nrt (svc : Option Service) : (s.putService svc).nrt = s.nrt := rfl
@[simp] theorem State.putService_val (svc : Option Service) : (s.putService svc).val = s.val := rfl
@[simp] theorem State.putService_rfe (svc : Option Service) : (s.putService svc).rfe = s.rfe := rfl
@[simp] theorem State.putService_tun (svc : Option Service) : (s.putService svc).tun = s.tun := rfl
@[simp] theorem State.putService_prb (svc : Option Service) : (s.putService svc).prb = s.prb := rfl
@[simp] theorem State.putService_psc (svc : Option Service) : (s.putService svc).psc = s.psc := rfl
@[simp] theorem State.putService_pst (svc : Option Service) : (s.putService svc).pst = { s.pst with service := svc } := rfl
@[simp] theorem State.putService_rpu (svc : Option Service) : (s.putService svc).rpu = s.rpu := rfl
@[simp] theorem State.putService_mem (svc : Option Service) : (s.putService svc).mem = s.mem := rfl
@[simp] theorem State.putService_flash (svc : Option Service) : (s.putService svc).flash = s.flash := rfl
@[simp] theorem State.putService_openUsed (svc : Option Service) : (s.putService svc).openUsed = s.openUsed := rfl
@[simp] theorem State.putService_pending (svc : Option Service) : (s.putService svc).pending = s.pending := rfl

/-! ### State.putBuffer -/

@[simp] theorem State.putBuffer_mpa (b : List Byte) : (s.putBuffer b).mpa = s.mpa := rfl
@[simp] theorem State.putBuffer_rqu (b : List Byte) : (s.putBuffer b).rqu = s.rqu := rfl
@[simp] theorem State.putBuffer_nrt (b : List Byte) : (s.putBuffer b).nrt = s.nrt := rfl
@[simp] theorem State.putBuffer_val (b : List Byte) : (s.putBuffer b).val = s.val := rfl
@[simp] theorem State.putBuffer_rfe (b : List Byte) : (s.putBuffer b).rfe = s.rfe := rfl
@[simp] theorem State.putBuffer_tun (b : List Byte) : (s.putBuffer b).tun = s.tun := rfl
@[simp] theorem State.putBuffer_prb (b : List Byte) : (s.putBuffer b).prb = s.prb := rfl
@[simp] theorem State.putBuffer_psc (b : List Byte) : (s.putBuffer b).psc = s.psc := rfl
@[simp] theorem State.putBuffer_pst (b : List Byte) : (s.putBuffer b).pst = { s.pst with buffer := b } := rfl
@[simp] theorem State.putBuffer_rpu (b : List Byte) : (s.putBuffer b).rpu = s.rpu := rfl
@[simp] theorem State.putBuffer_mem (b : List Byte) : (s.putBuffer b).mem = s.mem := rfl
@[simp] theorem State.putBuffer_flash (b : List Byte) : (s.putBuffer b).flash = s.flash := rfl
@[simp] theorem State.putBuffer_openUsed (b : List Byte) : (s.putBuffer b).openUsed = s.openUsed := rfl
@[simp] theorem State.putBuffer_pending (b : List Byte) : (s.putBuffer b).pending = s.pending := rfl

/-! ### State.resetTo -/

@[simp] theorem State.resetTo_mpa (t : State) : (s.resetTo t).mpa = t.mpa := rfl
@[simp] theorem State.resetTo_rqu (t : State) : (s.resetTo t).rqu = t.rqu := rfl
@[simp] theorem State.resetTo_nrt (t : State) : (s.resetTo t).nrt = t.nrt := rfl
@[simp] theorem State.resetTo_val (t : State) : (s.resetTo t).val = t.val := rfl
@[simp] theorem State.resetTo_tun (t : State) : (s.resetTo t).tun = t.tun := rfl
@[simp] theorem State.resetTo_prb (t : State) : (s.resetTo t).prb = t.prb := rfl
@[simp] theorem State.resetTo_psc (t : State) : (s.resetTo t).psc = t.psc := rfl
@[simp] theorem State.resetTo_pst (t : State) : (s.resetTo t).pst = t.pst := rfl
@[simp] theorem State.resetTo_rpu (t : State) : (s.resetTo t).rpu = t.rpu := rfl
@[simp] theorem State.resetTo_mem (t : State) : (s.resetTo t).mem = t.mem := rfl
@[simp] theorem State.resetTo_rfe (t : State) :
    (s.resetTo t).rfe = { t.rfe with dacOut := s.cutDac, cv := s.cutHold } := rfl
@[simp] theorem State.resetTo_flash (t : State) : (s.resetTo t).flash = s.cutFlash.flash := rfl
@[simp] theorem State.resetTo_openUsed (t : State) : (s.resetTo t).openUsed = s.openUsed + 1 := rfl
@[simp] theorem State.resetTo_pending (t : State) : (s.resetTo t).pending = s.pending := rfl

end Sys2Proof.Machine
end

