-- ==== Sys2Proof/Laws/Memory.lean ====
section
/-! SUPPORT. The laws of the two byte memories: a read after a write, and that every operation on them keeps the
canonical form. -/

namespace Sys2Proof.Machine

variable (fill : Byte) (size : Nat)

/-! ### The list of bytes -/

theorem Memory.read_write_ne (m : List Host.Cell) (a b : Nat) (x : Byte) (h : b ≠ a) :
    Memory.read fill (Memory.write fill m a x) b = Memory.read fill m b := by
  induction m with
  | nil => unfold Memory.write; split <;> simp [Memory.read, h]
  | cons c m ih =>
    obtain ⟨k, v⟩ := c
    unfold Memory.write
    split
    · split <;> simp [Memory.read, h]
    · split
      · next hk => subst hk; split <;> simp [Memory.read, h]
      · simp [Memory.read, ih]

/-- The parts of the canonical form of a list with a first entry. -/
theorem Memory.wf_cons (k : Nat) (v : Byte) (m : List Host.Cell) :
    Memory.wf fill size ((k, v) :: m) = true ↔
      k < size ∧ v ≠ fill ∧ (∀ c, m.head? = some c → k < c.1) ∧ Memory.wf fill size m = true := by
  cases m with
  | nil => simp [Memory.wf]
  | cons c m => obtain ⟨k', v'⟩ := c; simp [Memory.wf]; tauto

/-- Below the first entry of a canonical list, and before it, nothing is listed. -/
theorem Memory.read_low (m : List Host.Cell) (a : Nat) (hm : Memory.wf fill size m = true)
    (h : ∀ c, m.head? = some c → a < c.1) : Memory.read fill m a = fill := by
  induction m with
  | nil => rfl
  | cons c m ih =>
    obtain ⟨k, v⟩ := c
    have hk : a < k := h (k, v) rfl
    rw [Memory.wf_cons] at hm
    have hne : a ≠ k := by omega
    simp only [Memory.read, hne, if_false]
    exact ih hm.2.2.2 fun c hc => by have := hm.2.2.1 c hc; omega

theorem Memory.read_write_same (m : List Host.Cell) (a : Nat) (x : Byte) (hm : Memory.wf fill size m = true) :
    Memory.read fill (Memory.write fill m a x) a = x := by
  induction m with
  | nil =>
    unfold Memory.write
    split
    · next h => simp [Memory.read, h]
    · simp [Memory.read]
  | cons c m ih =>
    obtain ⟨k, v⟩ := c
    have hw := (Memory.wf_cons fill size k v m).1 hm
    unfold Memory.write
    split
    · next hk =>
      split
      · next hx =>
        rw [hx]
        exact Memory.read_low fill size _ a hm fun c hc => by
          simp only [List.head?_cons, Option.some.injEq] at hc
          subst hc
          exact hk
      · simp [Memory.read]
    · split
      · next hk =>
        split
        · next hx =>
          rw [hx, hk]
          exact Memory.read_low fill size m k hw.2.2.2 hw.2.2.1
        · simp [Memory.read]
      · next hk =>
        simp only [Memory.read, hk, if_false]
        exact ih hw.2.2.2

/-- Every entry of a canonical list stands above a bound that its first entry stands above. -/
theorem Memory.wf_above (m : List Host.Cell) (a : Nat) (hm : Memory.wf fill size m = true)
    (h : ∀ c, m.head? = some c → a < c.1) : ∀ c ∈ m, a < c.1 := by
  induction m generalizing a with
  | nil => simp
  | cons d m ih =>
    obtain ⟨k, v⟩ := d
    rw [Memory.wf_cons] at hm
    have hk : a < k := h (k, v) rfl
    intro c hc
    rcases List.mem_cons.1 hc with rfl | hc
    · exact hk
    · exact ih a hm.2.2.2 (fun c hc => by have := hm.2.2.1 c hc; omega) c hc

/-- A canonical list is one whose entries rise strictly, lie below the size and differ from the fill. -/
theorem Memory.wf_iff (m : List Host.Cell) :
    Memory.wf fill size m = true ↔
      m.Pairwise (fun c d => c.1 < d.1) ∧ ∀ c ∈ m, c.1 < size ∧ c.2 ≠ fill := by
  induction m with
  | nil => simp [Memory.wf]
  | cons d m ih =>
    obtain ⟨k, v⟩ := d
    rw [Memory.wf_cons]
    constructor
    · rintro ⟨h1, h2, h3, h4⟩
      have ha := Memory.wf_above fill size m k h4 h3
      have hi := ih.1 h4
      exact ⟨List.pairwise_cons.2 ⟨fun c hc => ha c hc, hi.1⟩, by
        intro c hc
        rcases List.mem_cons.1 hc with rfl | hc
        · exact ⟨h1, h2⟩
        · exact hi.2 c hc⟩
    · rintro ⟨hp, hall⟩
      have hp' := List.pairwise_cons.1 hp
      have h0 := hall (k, v) List.mem_cons_self
      exact ⟨h0.1, h0.2, fun c hc => hp'.1 c (List.mem_of_head? hc),
        ih.2 ⟨hp'.2, fun c hc => hall c (List.mem_cons_of_mem _ hc)⟩⟩

/-- What a write lists: what was listed at other addresses, and the byte written where it is not the fill. -/
theorem Memory.mem_write (m : List Host.Cell) (a : Nat) (x : Byte) (c : Host.Cell)
    (h : c ∈ Memory.write fill m a x) : c ∈ m ∨ (c = (a, x) ∧ x ≠ fill) := by
  induction m with
  | nil =>
    unfold Memory.write at h
    split at h
    · simp at h
    · next hx => exact Or.inr ⟨by simpa using h, hx⟩
  | cons d m ih =>
    obtain ⟨k, v⟩ := d
    unfold Memory.write at h
    split at h
    · split at h
      · exact Or.inl h
      · next hx =>
        rcases List.mem_cons.1 h with h | h
        · exact Or.inr ⟨h, hx⟩
        · exact Or.inl h
    · split at h
      · split at h
        · exact Or.inl (List.mem_cons_of_mem _ h)
        · next hx =>
          rcases List.mem_cons.1 h with h | h
          · exact Or.inr ⟨h, hx⟩
          · exact Or.inl (List.mem_cons_of_mem _ h)
      · rcases List.mem_cons.1 h with h | h
        · exact Or.inl (by rw [h]; exact List.mem_cons_self)
        · rcases ih h with h | h
          · exact Or.inl (List.mem_cons_of_mem _ h)
          · exact Or.inr h

theorem Memory.write_wf (m : List Host.Cell) (a : Nat) (x : Byte) (ha : a < size)
    (hm : Memory.wf fill size m = true) : Memory.wf fill size (Memory.write fill m a x) = true := by
  induction m with
  | nil =>
    unfold Memory.write
    split
    · rfl
    · next hx => simp [Memory.wf, ha, hx]
  | cons d m ih =>
    obtain ⟨k, v⟩ := d
    have hw := (Memory.wf_cons fill size k v m).1 hm
    unfold Memory.write
    split
    · next hk =>
      split
      · exact hm
      · next hx =>
        rw [Memory.wf_cons]
        exact ⟨ha, hx, fun c hc => by simp at hc; subst hc; exact hk, hm⟩
    · split
      · next hk =>
        split
        · exact hw.2.2.2
        · next hx =>
          rw [Memory.wf_cons]
          exact ⟨ha, hx, fun c hc => by have := hw.2.2.1 c hc; omega, hw.2.2.2⟩
      · rw [Memory.wf_cons]
        refine ⟨hw.1, hw.2.1, fun c hc => ?_, ih hw.2.2.2⟩
        rcases Memory.mem_write fill m a x c (List.mem_of_head? hc) with h | h
        · exact Memory.wf_above fill size m k hw.2.2.2 hw.2.2.1 c h
        · rw [h.1]; simp only; omega

theorem Memory.filter_wf (m : List Host.Cell) (p : Host.Cell → Bool) (hm : Memory.wf fill size m = true) :
    Memory.wf fill size (m.filter p) = true := by
  rw [Memory.wf_iff] at hm ⊢
  exact ⟨hm.1.filter p, fun c hc => hm.2 c (List.mem_of_mem_filter hc)⟩

/-! ### Common memory -/

theorem State.poke_wf (s : State) (a : Nat) (x : Byte) (h : Memory.wf Config.memFill Config.memSize s.mem = true) :
    Memory.wf Config.memFill Config.memSize (s.poke a x).mem = true := by
  unfold State.poke
  split
  · next ha => exact Memory.write_wf _ _ _ _ _ ha h
  · exact h

theorem State.pokes_wf (s : State) (a : Nat) (l : List Byte)
    (h : Memory.wf Config.memFill Config.memSize s.mem = true) :
    Memory.wf Config.memFill Config.memSize (s.pokes a l).mem = true := by
  induction l generalizing s a with
  | nil => exact h
  | cons b l ih => exact ih _ _ (s.poke_wf a b h)

theorem State.peek_poke_same (s : State) (a : Nat) (x : Byte) (ha : a < Config.memSize)
    (h : Memory.wf Config.memFill Config.memSize s.mem = true) : (s.poke a x).peek a = x := by
  unfold State.poke State.peek
  rw [if_pos ha]
  exact Memory.read_write_same _ _ _ _ _ h

theorem State.peek_poke_ne (s : State) (a b : Nat) (x : Byte) (h : b ≠ a) : (s.poke a x).peek b = s.peek b := by
  unfold State.poke State.peek
  split
  · exact Memory.read_write_ne _ _ _ _ _ h
  · rfl

/-- A run of writes leaves every byte outside the run. -/
theorem State.peek_pokes_outside (s : State) (a b : Nat) (l : List Byte) (h : b < a ∨ a + l.length ≤ b) :
    (s.pokes a l).peek b = s.peek b := by
  induction l generalizing s a with
  | nil => rfl
  | cons x l ih =>
    simp only [List.length_cons] at h
    rw [State.pokes, ih _ _ (by omega), State.peek_poke_ne _ _ _ _ (by omega)]

/-- A run of writes inside common memory reads back. -/
theorem State.peek_pokes_inside (s : State) (a i : Nat) (l : List Byte) (hi : i < l.length)
    (ha : a + l.length ≤ Config.memSize) (h : Memory.wf Config.memFill Config.memSize s.mem = true) :
    (s.pokes a l).peek (a + i) = l[i] := by
  induction l generalizing s a i with
  | nil => simp at hi
  | cons x l ih =>
    simp only [List.length_cons] at hi ha
    cases i with
    | zero =>
      rw [State.pokes, State.peek_pokes_outside _ _ _ _ (by omega)]
      simpa using s.peek_poke_same a x (by omega) h
    | succ i =>
      rw [State.pokes]
      have := ih (s.poke a x) (a + 1) i (by omega) (by omega) (s.poke_wf a x h)
      simpa [Nat.add_assoc, Nat.add_comm 1 i] using this

/-- A run of bytes reads as a list when each of its bytes does. -/
theorem State.peeks_eq (s : State) (a : Nat) (l : List Byte) (h : ∀ i (hi : i < l.length), s.peek (a + i) = l[i]) :
    s.peeks a l.length = l := by
  induction l generalizing a with
  | nil => rfl
  | cons x l ih =>
    have h0 : s.peek a = x := h 0 (by simp)
    rw [List.length_cons, State.peeks, h0]
    refine congrArg _ (ih _ fun i hi => ?_)
    rw [Nat.add_assoc, Nat.add_comm 1 i]
    exact h (i + 1) (by simpa using hi)

/-- A run of writes inside common memory leaves that run of bytes. -/
theorem State.peeks_pokes (s : State) (a : Nat) (l : List Byte) (ha : a + l.length ≤ Config.memSize)
    (h : Memory.wf Config.memFill Config.memSize s.mem = true) : (s.pokes a l).peeks a l.length = l :=
  State.peeks_eq _ _ _ fun i hi => s.peek_pokes_inside a i l hi ha h

/-! ### The flash store -/

theorem flashAddr_lt (p : PageId) (off : Nat) (h : off < Config.pageSize) : flashAddr p off < Config.flashSize := by
  have := p.isLt
  unfold flashAddr Config.pageSize Config.flashSize at *
  omega

theorem flashAddr_inj (p q : PageId) (i j : Nat) (hi : i < Config.pageSize) (hj : j < Config.pageSize) :
    flashAddr p i = flashAddr q j ↔ p = q ∧ i = j := by
  unfold flashAddr Config.pageSize at *
  constructor
  · intro h
    exact ⟨Fin.ext (by omega), by omega⟩
  · rintro ⟨rfl, rfl⟩
    rfl

theorem State.setFlash_wf (s : State) (p : PageId) (off : Nat) (x : Byte)
    (h : Memory.wf Config.erased Config.flashSize s.flash = true) :
    Memory.wf Config.erased Config.flashSize (s.setFlash p off x).flash = true := by
  unfold State.setFlash
  split
  · next ho => exact Memory.write_wf _ _ _ _ _ (flashAddr_lt p off ho) h
  · exact h

theorem State.flashByte_setFlash (s : State) (p q : PageId) (i j : Nat) (x : Byte) (hi : i < Config.pageSize)
    (hj : j < Config.pageSize) (h : Memory.wf Config.erased Config.flashSize s.flash = true) :
    (s.setFlash p i x).flashByte q j = if q = p ∧ j = i then x else s.flashByte q j := by
  unfold State.setFlash State.flashByte
  rw [if_pos hi]
  split
  · next e =>
    obtain ⟨rfl, rfl⟩ := e
    exact Memory.read_write_same _ _ _ _ _ h
  · next e => exact Memory.read_write_ne _ _ _ _ _ fun he => e ((flashAddr_inj q p j i hj hi).1 he)

theorem State.blankPage_wf (s : State) (p : PageId) (h : Memory.wf Config.erased Config.flashSize s.flash = true) :
    Memory.wf Config.erased Config.flashSize (s.blankPage p).flash = true :=
  Memory.filter_wf _ _ _ _ h

/-- Reading through a filter: an address that the filter keeps reads as before, one it drops reads the fill. -/
theorem Memory.read_filter (m : List Host.Cell) (q : Nat → Bool) (a : Nat) :
    Memory.read fill (m.filter fun c => q c.1) a = if q a then Memory.read fill m a else fill := by
  induction m with
  | nil => simp [Memory.read]
  | cons c m ih =>
    obtain ⟨k, v⟩ := c
    by_cases hq : q k
    · simp only [List.filter_cons, hq, if_true, Memory.read, ih]
      by_cases hk : a = k
      · simp [hk, hq]
      · simp [hk]
    · rw [List.filter_cons, if_neg (by simpa using hq), ih]
      by_cases hk : a = k
      · simp [hk, hq]
      · simp [Memory.read, hk]

theorem State.flashByte_blankPage (s : State) (p q : PageId) (j : Nat) (hj : j < Config.pageSize) :
    (s.blankPage p).flashByte q j = if q = p then Config.erased else s.flashByte q j := by
  unfold State.blankPage State.flashByte
  rw [Memory.read_filter Config.erased s.flash (fun a => !(decide (flashAddr p 0 ≤ a) && decide (a < flashAddr p 512)))]
  by_cases h : q = p
  · subst h
    have : flashAddr q 0 ≤ flashAddr q j ∧ flashAddr q j < flashAddr q 512 := by
      unfold flashAddr Config.pageSize at *; omega
    simp [this.1, this.2]
  · have hne : q.val ≠ p.val := fun e => h (Fin.ext e)
    have : ¬ (flashAddr p 0 ≤ flashAddr q j ∧ flashAddr q j < flashAddr p 512) := by
      unfold flashAddr Config.pageSize at *; omega
    by_cases h1 : flashAddr p 0 ≤ flashAddr q j
    · have h2 : ¬ flashAddr q j < flashAddr p 512 := fun e => this ⟨h1, e⟩
      simp [h, h1, h2]
    · simp [h, h1]

theorem State.erasePage_wf (s : State) (p : PageId) (r : List (Fin 512 × Byte))
    (h : Memory.wf Config.erased Config.flashSize s.flash = true) :
    Memory.wf Config.erased Config.flashSize (s.erasePage p r).flash = true := by
  unfold State.erasePage
  have h0 := s.blankPage_wf p h
  generalize s.blankPage p = t at h0
  induction r generalizing t with
  | nil => exact h0
  | cons x r ih => exact ih _ (t.setFlash_wf p x.1.val x.2 h0)

theorem State.cutFlash_wf (s : State) (h : Memory.wf Config.erased Config.flashSize s.flash = true) :
    Memory.wf Config.erased Config.flashSize s.cutFlash.flash = true := by
  unfold State.cutFlash
  split
  · exact s.setFlash_wf _ _ _ h
  · next p _ _ =>
    generalize s.openUsed = u
    generalize List.finRange 512 = l
    clear * - h
    induction l generalizing s with
    | nil => exact h
    | cons i l ih => exact ih _ (s.setFlash_wf p i.val _ h)
  · exact h
  · exact h

/-- The state after device reset has both memories in canonical form: nothing is listed. -/
theorem State.reset_wf :
    Memory.wf Config.memFill Config.memSize State.reset.mem = true ∧
      Memory.wf Config.erased Config.flashSize State.reset.flash = true := ⟨rfl, rfl⟩

end Sys2Proof.Machine
end

