-- ==== Sys2Proof/Laws/Image.lean ====
section
/-! SUPPORT. What the writes into common memory and the image change: runs of bytes, image entries, voice records,
trust masks, parameters, names and knobs. -/

namespace Sys2Proof.Machine

variable (s : State)

/-! ### Runs of bytes and image entries: only common memory changes -/

theorem State.pokes_only (a : Nat) (l : List Byte) : s.pokes a l = { s with mem := (s.pokes a l).mem } := by
  induction l generalizing s a with
  | nil => rfl
  | cons b l ih =>
    rw [State.pokes, ih]
    unfold State.poke
    split <;> rfl

@[simp] theorem State.pokes_mpa (a : Nat) (l : List Byte) : (s.pokes a l).mpa = s.mpa := by rw [s.pokes_only a l]
@[simp] theorem State.pokes_rqu (a : Nat) (l : List Byte) : (s.pokes a l).rqu = s.rqu := by rw [s.pokes_only a l]
@[simp] theorem State.pokes_nrt (a : Nat) (l : List Byte) : (s.pokes a l).nrt = s.nrt := by rw [s.pokes_only a l]
@[simp] theorem State.pokes_val (a : Nat) (l : List Byte) : (s.pokes a l).val = s.val := by rw [s.pokes_only a l]
@[simp] theorem State.pokes_rfe (a : Nat) (l : List Byte) : (s.pokes a l).rfe = s.rfe := by rw [s.pokes_only a l]
@[simp] theorem State.pokes_tun (a : Nat) (l : List Byte) : (s.pokes a l).tun = s.tun := by rw [s.pokes_only a l]
@[simp] theorem State.pokes_prb (a : Nat) (l : List Byte) : (s.pokes a l).prb = s.prb := by rw [s.pokes_only a l]
@[simp] theorem State.pokes_psc (a : Nat) (l : List Byte) : (s.pokes a l).psc = s.psc := by rw [s.pokes_only a l]
@[simp] theorem State.pokes_pst (a : Nat) (l : List Byte) : (s.pokes a l).pst = s.pst := by rw [s.pokes_only a l]
@[simp] theorem State.pokes_rpu (a : Nat) (l : List Byte) : (s.pokes a l).rpu = s.rpu := by rw [s.pokes_only a l]
@[simp] theorem State.pokes_flash (a : Nat) (l : List Byte) : (s.pokes a l).flash = s.flash := by rw [s.pokes_only a l]
@[simp] theorem State.pokes_openUsed (a : Nat) (l : List Byte) : (s.pokes a l).openUsed = s.openUsed := by rw [s.pokes_only a l]
@[simp] theorem State.pokes_pending (a : Nat) (l : List Byte) : (s.pokes a l).pending = s.pending := by rw [s.pokes_only a l]

theorem State.image_only (off : Nat) (l : List Byte) : s.image off l = { s with mem := (s.image off l).mem } := by
  unfold State.image
  split
  · exact s.pokes_only _ _
  · rfl

@[simp] theorem State.image_mpa (off : Nat) (l : List Byte) : (s.image off l).mpa = s.mpa := by rw [s.image_only off l]
@[simp] theorem State.image_rqu (off : Nat) (l : List Byte) : (s.image off l).rqu = s.rqu := by rw [s.image_only off l]
@[simp] theorem State.image_nrt (off : Nat) (l : List Byte) : (s.image off l).nrt = s.nrt := by rw [s.image_only off l]
@[simp] theorem State.image_val (off : Nat) (l : List Byte) : (s.image off l).val = s.val := by rw [s.image_only off l]
@[simp] theorem State.image_rfe (off : Nat) (l : List Byte) : (s.image off l).rfe = s.rfe := by rw [s.image_only off l]
@[simp] theorem State.image_tun (off : Nat) (l : List Byte) : (s.image off l).tun = s.tun := by rw [s.image_only off l]
@[simp] theorem State.image_prb (off : Nat) (l : List Byte) : (s.image off l).prb = s.prb := by rw [s.image_only off l]
@[simp] theorem State.image_psc (off : Nat) (l : List Byte) : (s.image off l).psc = s.psc := by rw [s.image_only off l]
@[simp] theorem State.image_pst (off : Nat) (l : List Byte) : (s.image off l).pst = s.pst := by rw [s.image_only off l]
@[simp] theorem State.image_rpu (off : Nat) (l : List Byte) : (s.image off l).rpu = s.rpu := by rw [s.image_only off l]
@[simp] theorem State.image_flash (off : Nat) (l : List Byte) : (s.image off l).flash = s.flash := by rw [s.image_only off l]
@[simp] theorem State.image_openUsed (off : Nat) (l : List Byte) : (s.image off l).openUsed = s.openUsed := by rw [s.image_only off l]
@[simp] theorem State.image_pending (off : Nat) (l : List Byte) : (s.image off l).pending = s.pending := by rw [s.image_only off l]

theorem State.image_wf (off : Nat) (l : List Byte) (h : Memory.wf Config.memFill Config.memSize s.mem = true) :
    Memory.wf Config.memFill Config.memSize (s.image off l).mem = true := by
  unfold State.image
  split
  · exact s.pokes_wf _ _ h
  · exact h

/-- An image write leaves every byte outside the entry; with no image active it leaves them all. -/
theorem State.peek_image (off a : Nat) (l : List Byte) (h : ∀ b, s.imageBase = some b → a < b + off ∨ b + off + l.length ≤ a) :
    (s.image off l).peek a = s.peek a := by
  unfold State.image
  split
  · next b hb => exact s.peek_pokes_outside _ _ _ (h b hb)
  · rfl

/-- Where the image stands depends on the port alone. -/
theorem State.imageBase_mpa (t : State) (h : t.mpa = s.mpa) : t.imageBase = s.imageBase := by
  unfold State.imageBase State.active
  rw [h]

/-! ### Voice records -/

/-- Writing a voice record changes the record and the image, and nothing else. -/
theorem State.putVoice_only (v : VoiceId) (r : Voice) :
    s.putVoice v r =
      { s with val := { s.val with voices := tset s.val.voices v r }, mem := (s.putVoice v r).mem } := by
  unfold State.putVoice
  simp only
  split
  · rfl
  · rw [State.image_only]

@[simp] theorem State.putVoice_val (v : VoiceId) (r : Voice) :
    (s.putVoice v r).val = { s.val with voices := tset s.val.voices v r } := by rw [s.putVoice_only v r]
@[simp] theorem State.putVoice_mpa (v : VoiceId) (r : Voice) : (s.putVoice v r).mpa = s.mpa := by rw [s.putVoice_only v r]
@[simp] theorem State.putVoice_rqu (v : VoiceId) (r : Voice) : (s.putVoice v r).rqu = s.rqu := by rw [s.putVoice_only v r]
@[simp] theorem State.putVoice_nrt (v : VoiceId) (r : Voice) : (s.putVoice v r).nrt = s.nrt := by rw [s.putVoice_only v r]
@[simp] theorem State.putVoice_rfe (v : VoiceId) (r : Voice) : (s.putVoice v r).rfe = s.rfe := by rw [s.putVoice_only v r]
@[simp] theorem State.putVoice_tun (v : VoiceId) (r : Voice) : (s.putVoice v r).tun = s.tun := by rw [s.putVoice_only v r]
@[simp] theorem State.putVoice_prb (v : VoiceId) (r : Voice) : (s.putVoice v r).prb = s.prb := by rw [s.putVoice_only v r]
@[simp] theorem State.putVoice_psc (v : VoiceId) (r : Voice) : (s.putVoice v r).psc = s.psc := by rw [s.putVoice_only v r]
@[simp] theorem State.putVoice_pst (v : VoiceId) (r : Voice) : (s.putVoice v r).pst = s.pst := by rw [s.putVoice_only v r]
@[simp] theorem State.putVoice_rpu (v : VoiceId) (r : Voice) : (s.putVoice v r).rpu = s.rpu := by rw [s.putVoice_only v r]
@[simp] theorem State.putVoice_flash (v : VoiceId) (r : Voice) : (s.putVoice v r).flash = s.flash := by rw [s.putVoice_only v r]
@[simp] theorem State.putVoice_openUsed (v : VoiceId) (r : Voice) : (s.putVoice v r).openUsed = s.openUsed := by rw [s.putVoice_only v r]
@[simp] theorem State.putVoice_pending (v : VoiceId) (r : Voice) : (s.putVoice v r).pending = s.pending := by rw [s.putVoice_only v r]

@[simp] theorem State.voice_putVoice (v w : VoiceId) (r : Voice) :
    (s.putVoice v r).voice w = if v = w then r else s.voice w := by
  unfold State.voice
  rw [State.putVoice_val, tget_tset]

theorem State.putVoice_wf (v : VoiceId) (r : Voice) (h : Memory.wf Config.memFill Config.memSize s.mem = true) :
    Memory.wf Config.memFill Config.memSize (s.putVoice v r).mem = true := by
  unfold State.putVoice
  simp only
  split
  · exact h
  · exact State.image_wf _ _ _ h

/-- A voice record's write leaves every byte outside the voice's image entry. -/
theorem State.peek_putVoice (v : VoiceId) (r : Voice) (a : Nat)
    (h : ∀ b, s.imageBase = some b → a < b + (112 + 8 * v.val) ∨ b + (112 + 8 * v.val) + 8 ≤ a) :
    (s.putVoice v r).peek a = s.peek a := by
  unfold State.putVoice
  simp only
  split
  · rfl
  · refine (State.peek_image _ _ _ _ fun b hb => ?_).trans rfl
    have hl : r.imageBytes.length = 8 := rfl
    rw [hl]
    exact h b hb

/-! ### Trust masks -/

/-- Writing a trust mask changes the mask and the image, and nothing else. -/
theorem State.putTrust_only (o : OscId) (m : BitVec 9) :
    s.putTrust o m =
      { s with tun := { s.tun with trust := tset s.tun.trust o m }, mem := (s.putTrust o m).mem } := by
  unfold State.putTrust
  split
  · next h =>
    have : tset s.tun.trust o m = s.tun.trust := by
      subst h
      simp [tset, tget]
    rw [this]
  · simp only
    rw [State.image_only]

@[simp] theorem State.putTrust_tun (o : OscId) (m : BitVec 9) :
    (s.putTrust o m).tun = { s.tun with trust := tset s.tun.trust o m } := by rw [s.putTrust_only o m]
@[simp] theorem State.putTrust_mpa (o : OscId) (m : BitVec 9) : (s.putTrust o m).mpa = s.mpa := by rw [s.putTrust_only o m]
@[simp] theorem State.putTrust_rqu (o : OscId) (m : BitVec 9) : (s.putTrust o m).rqu = s.rqu := by rw [s.putTrust_only o m]
@[simp] theorem State.putTrust_nrt (o : OscId) (m : BitVec 9) : (s.putTrust o m).nrt = s.nrt := by rw [s.putTrust_only o m]
@[simp] theorem State.putTrust_val (o : OscId) (m : BitVec 9) : (s.putTrust o m).val = s.val := by rw [s.putTrust_only o m]
@[simp] theorem State.putTrust_rfe (o : OscId) (m : BitVec 9) : (s.putTrust o m).rfe = s.rfe := by rw [s.putTrust_only o m]
@[simp] theorem State.putTrust_prb (o : OscId) (m : BitVec 9) : (s.putTrust o m).prb = s.prb := by rw [s.putTrust_only o m]
@[simp] theorem State.putTrust_psc (o : OscId) (m : BitVec 9) : (s.putTrust o m).psc = s.psc := by rw [s.putTrust_only o m]
@[simp] theorem State.putTrust_pst (o : OscId) (m : BitVec 9) : (s.putTrust o m).pst = s.pst := by rw [s.putTrust_only o m]
@[simp] theorem State.putTrust_rpu (o : OscId) (m : BitVec 9) : (s.putTrust o m).rpu = s.rpu := by rw [s.putTrust_only o m]
@[simp] theorem State.putTrust_flash (o : OscId) (m : BitVec 9) : (s.putTrust o m).flash = s.flash := by rw [s.putTrust_only o m]
@[simp] theorem State.putTrust_openUsed (o : OscId) (m : BitVec 9) : (s.putTrust o m).openUsed = s.openUsed := by rw [s.putTrust_only o m]
@[simp] theorem State.putTrust_pending (o : OscId) (m : BitVec 9) : (s.putTrust o m).pending = s.pending := by rw [s.putTrust_only o m]

theorem State.putTrust_wf (o : OscId) (m : BitVec 9) (h : Memory.wf Config.memFill Config.memSize s.mem = true) :
    Memory.wf Config.memFill Config.memSize (s.putTrust o m).mem = true := by
  unfold State.putTrust
  split
  · exact h
  · exact State.image_wf _ _ _ h

/-! ### Parameters, names and knobs -/

/-- Storing a parameter changes its value and the image, and nothing else. -/
theorem State.storeParam_only (n : ParamId) (x : Nat) :
    s.storeParam n x =
      { s with prb := { s.prb with params := tset s.prb.params n (clampParam x) }, mem := (s.storeParam n x).mem } := by
  unfold State.storeParam State.imageParam
  rw [State.image_only]

@[simp] theorem State.storeParam_prb (n : ParamId) (x : Nat) :
    (s.storeParam n x).prb = { s.prb with params := tset s.prb.params n (clampParam x) } := by
  rw [s.storeParam_only n x]
@[simp] theorem State.storeParam_mpa (n : ParamId) (x : Nat) : (s.storeParam n x).mpa = s.mpa := by rw [s.storeParam_only n x]
@[simp] theorem State.storeParam_rqu (n : ParamId) (x : Nat) : (s.storeParam n x).rqu = s.rqu := by rw [s.storeParam_only n x]
@[simp] theorem State.storeParam_nrt (n : ParamId) (x : Nat) : (s.storeParam n x).nrt = s.nrt := by rw [s.storeParam_only n x]
@[simp] theorem State.storeParam_val (n : ParamId) (x : Nat) : (s.storeParam n x).val = s.val := by rw [s.storeParam_only n x]
@[simp] theorem State.storeParam_rfe (n : ParamId) (x : Nat) : (s.storeParam n x).rfe = s.rfe := by rw [s.storeParam_only n x]
@[simp] theorem State.storeParam_tun (n : ParamId) (x : Nat) : (s.storeParam n x).tun = s.tun := by rw [s.storeParam_only n x]
@[simp] theorem State.storeParam_psc (n : ParamId) (x : Nat) : (s.storeParam n x).psc = s.psc := by rw [s.storeParam_only n x]
@[simp] theorem State.storeParam_pst (n : ParamId) (x : Nat) : (s.storeParam n x).pst = s.pst := by rw [s.storeParam_only n x]
@[simp] theorem State.storeParam_rpu (n : ParamId) (x : Nat) : (s.storeParam n x).rpu = s.rpu := by rw [s.storeParam_only n x]
@[simp] theorem State.storeParam_flash (n : ParamId) (x : Nat) : (s.storeParam n x).flash = s.flash := by rw [s.storeParam_only n x]
@[simp] theorem State.storeParam_openUsed (n : ParamId) (x : Nat) : (s.storeParam n x).openUsed = s.openUsed := by rw [s.storeParam_only n x]
@[simp] theorem State.storeParam_pending (n : ParamId) (x : Nat) : (s.storeParam n x).pending = s.pending := by rw [s.storeParam_only n x]

theorem State.storeParam_wf (n : ParamId) (x : Nat) (h : Memory.wf Config.memFill Config.memSize s.mem = true) :
    Memory.wf Config.memFill Config.memSize (s.storeParam n x).mem = true := by
  unfold State.storeParam State.imageParam
  exact State.image_wf _ _ _ h

theorem State.imageKnob_only (i : KnobId) : s.imageKnob i = { s with mem := (s.imageKnob i).mem } := by
  unfold State.imageKnob
  exact s.image_only _ _

@[simp] theorem State.imageKnob_mpa (i : KnobId) : (s.imageKnob i).mpa = s.mpa := by rw [s.imageKnob_only i]
@[simp] theorem State.imageKnob_rqu (i : KnobId) : (s.imageKnob i).rqu = s.rqu := by rw [s.imageKnob_only i]
@[simp] theorem State.imageKnob_nrt (i : KnobId) : (s.imageKnob i).nrt = s.nrt := by rw [s.imageKnob_only i]
@[simp] theorem State.imageKnob_val (i : KnobId) : (s.imageKnob i).val = s.val := by rw [s.imageKnob_only i]
@[simp] theorem State.imageKnob_rfe (i : KnobId) : (s.imageKnob i).rfe = s.rfe := by rw [s.imageKnob_only i]
@[simp] theorem State.imageKnob_tun (i : KnobId) : (s.imageKnob i).tun = s.tun := by rw [s.imageKnob_only i]
@[simp] theorem State.imageKnob_prb (i : KnobId) : (s.imageKnob i).prb = s.prb := by rw [s.imageKnob_only i]
@[simp] theorem State.imageKnob_psc (i : KnobId) : (s.imageKnob i).psc = s.psc := by rw [s.imageKnob_only i]
@[simp] theorem State.imageKnob_pst (i : KnobId) : (s.imageKnob i).pst = s.pst := by rw [s.imageKnob_only i]
@[simp] theorem State.imageKnob_rpu (i : KnobId) : (s.imageKnob i).rpu = s.rpu := by rw [s.imageKnob_only i]
@[simp] theorem State.imageKnob_flash (i : KnobId) : (s.imageKnob i).flash = s.flash := by rw [s.imageKnob_only i]
@[simp] theorem State.imageKnob_openUsed (i : KnobId) : (s.imageKnob i).openUsed = s.openUsed := by rw [s.imageKnob_only i]
@[simp] theorem State.imageKnob_pending (i : KnobId) : (s.imageKnob i).pending = s.pending := by rw [s.imageKnob_only i]

theorem State.imageKnob_wf (i : KnobId) (h : Memory.wf Config.memFill Config.memSize s.mem = true) :
    Memory.wf Config.memFill Config.memSize (s.imageKnob i).mem = true := s.image_wf _ _ h

/-- Replacing a name changes the name and the image, and nothing else. -/
theorem State.putName_only (p : Part) (x : Vector Byte 16) :
    s.putName p x =
      { s with prb := { s.prb with name := s.prb.name.put p x }, mem := (s.putName p x).mem } := by
  unfold State.putName State.imageName
  rw [State.image_only]

theorem State.putName_wf (p : Part) (x : Vector Byte 16) (h : Memory.wf Config.memFill Config.memSize s.mem = true) :
    Memory.wf Config.memFill Config.memSize (s.putName p x).mem = true := by
  unfold State.putName State.imageName
  exact State.image_wf _ _ _ h

/-- The effect of a detaching write on one knob changes knob records and the image alone. -/
theorem State.detachIfOn_only (n : ParamId) (i : KnobId) :
    s.detachIfOn n i = { s with psc := { s.psc with knobs := (s.detachIfOn n i).psc.knobs }, mem := (s.detachIfOn n i).mem } := by
  unfold State.detachIfOn State.detachKnob
  simp only
  split
  · split
    · rw [State.imageKnob_only]; rfl
    · rfl
  · rfl

/-- So it is over a run of knobs. -/
theorem State.detachAll_only (n : ParamId) (l : List KnobId) :
    l.foldl (State.detachIfOn n) s =
      { s with
        psc := { s.psc with knobs := (l.foldl (State.detachIfOn n) s).psc.knobs }
        mem := (l.foldl (State.detachIfOn n) s).mem } := by
  induction l generalizing s with
  | nil => rfl
  | cons i l ih =>
    rw [List.foldl_cons, ih]
    generalize List.foldl _ _ _ = u
    rw [s.detachIfOn_only n i]

/-- A detaching write stores one parameter, and changes knob records and the image beside it (R98). -/
theorem State.writeDetaching_only (n : ParamId) (x : Nat) :
    s.writeDetaching n x =
      { s with
        prb := { s.prb with params := tset s.prb.params n (clampParam x) }
        psc := { s.psc with knobs := (s.writeDetaching n x).psc.knobs }
        mem := (s.writeDetaching n x).mem } := by
  unfold State.writeDetaching
  rw [State.detachAll_only]
  generalize List.foldl _ _ _ = u
  rw [s.storeParam_only n x]

/-- The effect of a plain write on one knob changes knob records and the image alone. -/
theorem State.recomputeIfOn_only (n : ParamId) (j i : KnobId) :
    s.recomputeIfOn n j i =
      { s with
        psc := { s.psc with knobs := (s.recomputeIfOn n j i).psc.knobs }
        mem := (s.recomputeIfOn n j i).mem } := by
  unfold State.recomputeIfOn
  simp only
  split
  · split
    · rfl
    · rw [State.imageKnob_only]; rfl
  · rfl

/-- So it is over a run of knobs. -/
theorem State.recomputeAll_only (n : ParamId) (j : KnobId) (l : List KnobId) :
    l.foldl (State.recomputeIfOn n j) s =
      { s with
        psc := { s.psc with knobs := (l.foldl (State.recomputeIfOn n j) s).psc.knobs }
        mem := (l.foldl (State.recomputeIfOn n j) s).mem } := by
  induction l generalizing s with
  | nil => rfl
  | cons i l ih =>
    rw [List.foldl_cons, ih]
    generalize List.foldl _ _ _ = u
    rw [s.recomputeIfOn_only n j i]

/-- A plain write stores one parameter, and changes knob records and the image beside it (R98). -/
theorem State.writePlain_only (n : ParamId) (x : Nat) (j : KnobId) :
    s.writePlain n x j =
      { s with
        prb := { s.prb with params := tset s.prb.params n (clampParam x) }
        psc := { s.psc with knobs := (s.writePlain n x j).psc.knobs }
        mem := (s.writePlain n x j).mem } := by
  unfold State.writePlain
  rw [State.recomputeAll_only]
  generalize List.foldl _ _ _ = u
  rw [s.storeParam_only n x]

end Sys2Proof.Machine
end

