-- ==== Sys2Proof/Laws/Reports.lean ====
section
/-! SUPPORT. What the Report Unit's operations change: the port's summary and areas, the pending state, and common
memory. -/

namespace Sys2Proof.Machine

variable (s : State)

/-- Writing a report sets one attention bit, moves one fill position and writes one cell. -/
theorem State.writeReport_only (n : AreaId) (a : Area) (r : Report) :
    s.writeReport n a r =
      { s with
        mpa := { s.mpa with
          summary := s.mpa.summary ||| BitVec.twoPow 9 n.val
          areas := tset s.mpa.areas n (some { a with pos := a.nextPos }) }
        mem := (s.writeReport n a r).mem } := by
  unfold State.writeReport State.attention State.setArea State.poke
  simp only
  split <;> rw [State.pokes_only]

/-- A step of an emission changes the port's summary and areas, the pending state and common memory. -/
theorem State.emitOne_only (n : AreaId) (t : State) (h : s.emitOne n = some t) :
    t = { s with
      mpa := { s.mpa with summary := t.mpa.summary, areas := t.mpa.areas }
      rpu := { s.rpu with
        knobs := t.rpu.knobs, switches := t.rpu.switches, oscs := t.rpu.oscs, fault := t.rpu.fault }
      mem := t.mem } := by
  unfold State.emitOne at h
  split at h
  · next a c _ _ =>
    simp only [Option.some.injEq] at h
    subst h
    unfold State.clearChosen
    cases c <;> (simp only; rw [State.writeReport_only])
  · cases h

/-- So does a whole emission (R189). -/
theorem State.emitUpTo_only (n : AreaId) (fuel : Nat) :
    s.emitUpTo n fuel =
      { s with
        mpa := { s.mpa with summary := (s.emitUpTo n fuel).mpa.summary, areas := (s.emitUpTo n fuel).mpa.areas }
        rpu := { s.rpu with
          knobs := (s.emitUpTo n fuel).rpu.knobs, switches := (s.emitUpTo n fuel).rpu.switches
          oscs := (s.emitUpTo n fuel).rpu.oscs, fault := (s.emitUpTo n fuel).rpu.fault }
        mem := (s.emitUpTo n fuel).mem } := by
  induction fuel generalizing s with
  | zero => rfl
  | succ fuel ih =>
    unfold State.emitUpTo
    split
    · next t h =>
      have h1 := s.emitOne_only n t h
      have h2 := ih t
      rw [h2]
      generalize t.emitUpTo n fuel = u
      rw [h1]
    · rfl

/-- What an operation of the Report Unit may change. -/
def reportsOnly (s t : State) : Prop :=
  t = { s with
    mpa := { s.mpa with summary := t.mpa.summary, areas := t.mpa.areas }
    rpu := { s.rpu with
      knobs := t.rpu.knobs, switches := t.rpu.switches, oscs := t.rpu.oscs, fault := t.rpu.fault }
    mem := t.mem }

theorem State.emit_only (n : AreaId) : reportsOnly s (s.emit n) := s.emitUpTo_only n 139

theorem reportsOnly_refl : reportsOnly s s := rfl

theorem reportsOnly_trans (t u : State) (h : reportsOnly s t) (k : reportsOnly t u) : reportsOnly s u := by
  unfold reportsOnly at h k ⊢
  rw [k]
  generalize u.mpa = m
  generalize u.rpu = p
  generalize u.mem = q
  rw [h]

theorem State.reportKnob_only (i : KnobId) : reportsOnly s (s.reportKnob i) := by
  unfold State.reportKnob State.makePending
  split
  · split
    · exact reportsOnly_trans _ _ _ (by rfl) (State.emit_only _ _)
    · rfl
  · rfl

theorem State.reportSwitch_only (j : SwitchId) : reportsOnly s (s.reportSwitch j) := by
  unfold State.reportSwitch State.makePending
  split
  · split
    · exact reportsOnly_trans _ _ _ (by rfl) (State.emit_only _ _)
    · rfl
  · rfl

theorem State.reportOsc_only (o : OscId) : reportsOnly s (s.reportOsc o) := by
  unfold State.reportOsc State.makePending
  split
  · split
    · exact reportsOnly_trans _ _ _ (by rfl) (State.emit_only _ _)
    · rfl
  · rfl

theorem State.reportFault_only (f : FaultReport) : reportsOnly s (s.reportFault f) := by
  unfold State.reportFault State.makePending
  split
  · split
    · exact reportsOnly_trans _ _ _ (by rfl) (State.emit_only _ _)
    · rfl
  · rfl

theorem State.reportVoice_only (r : Report) : reportsOnly s (s.reportVoice r) := by
  unfold State.reportVoice
  split
  · next n _ =>
    split
    · simp only
      split
      · refine reportsOnly_trans _ _ _ (s.emit_only n) ?_
        unfold reportsOnly
        rw [State.writeReport_only]
      · exact s.emit_only n
    · rfl
  · rfl

/-! ### The canonical form of common memory -/

theorem State.writeReport_wf (n : AreaId) (a : Area) (r : Report)
    (h : Memory.wf Config.memFill Config.memSize s.mem = true) :
    Memory.wf Config.memFill Config.memSize (s.writeReport n a r).mem = true := by
  unfold State.writeReport
  simp only [State.setArea_mem, State.attention_mem]
  exact State.poke_wf _ _ _ (State.pokes_wf _ _ _ h)

theorem State.emit_wf (n : AreaId) (h : Memory.wf Config.memFill Config.memSize s.mem = true) :
    Memory.wf Config.memFill Config.memSize (s.emit n).mem = true := by
  unfold State.emit
  generalize 139 = fuel
  induction fuel generalizing s with
  | zero => exact h
  | succ fuel ih =>
    unfold State.emitUpTo
    split
    · next t ht =>
      refine ih t ?_
      unfold State.emitOne at ht
      split at ht
      · simp only [Option.some.injEq] at ht
        subst ht
        rw [State.clearChosen_mem]
        exact State.writeReport_wf _ _ _ _ h
      · cases ht
    · exact h

end Sys2Proof.Machine
end

