-- ==== Sys2Proof/Laws/Voices.lean ====
section
/-! SUPPORT. What the Voice Allocator's and the Refresh Engine's operations on one voice do. -/

namespace Sys2Proof.Machine

variable (s : State)

/-! ### Pushes (R66, R68) -/

/-- A push changes the jump queue alone: the channel joins the tail, or nothing happens. -/
theorem State.push_cases (n : ChanId) :
    s.push n = s ∧ (n ∈ s.rfe.jump ∨ Config.jumpDepth ≤ s.rfe.jump.length) ∨
      s.push n = { s with rfe := { s.rfe with jump := s.rfe.jump ++ [n] } } ∧ n ∉ s.rfe.jump ∧
        s.rfe.jump.length < Config.jumpDepth := by
  unfold State.push
  split
  · next h => exact Or.inl ⟨rfl, h⟩
  · next h =>
    rw [not_or] at h
    exact Or.inr ⟨rfl, h.1, by omega⟩

theorem State.push_only (n : ChanId) : s.push n = { s with rfe := { s.rfe with jump := (s.push n).rfe.jump } } := by
  rcases s.push_cases n with ⟨h, -⟩ | ⟨h, -⟩ <;> rw [h]

theorem State.pushVoice_only (v : VoiceId) :
    s.pushVoice v = { s with rfe := { s.rfe with jump := (s.pushVoice v).rfe.jump } } := by
  unfold State.pushVoice
  rw [State.push_only, State.push_only _ (chanOf v 1), State.push_only _ (chanOf v 0)]

@[simp] theorem State.pushVoice_mpa (v : VoiceId) : (s.pushVoice v).mpa = s.mpa := by rw [s.pushVoice_only v]
@[simp] theorem State.pushVoice_rqu (v : VoiceId) : (s.pushVoice v).rqu = s.rqu := by rw [s.pushVoice_only v]
@[simp] theorem State.pushVoice_nrt (v : VoiceId) : (s.pushVoice v).nrt = s.nrt := by rw [s.pushVoice_only v]
@[simp] theorem State.pushVoice_val (v : VoiceId) : (s.pushVoice v).val = s.val := by rw [s.pushVoice_only v]
@[simp] theorem State.pushVoice_tun (v : VoiceId) : (s.pushVoice v).tun = s.tun := by rw [s.pushVoice_only v]
@[simp] theorem State.pushVoice_prb (v : VoiceId) : (s.pushVoice v).prb = s.prb := by rw [s.pushVoice_only v]
@[simp] theorem State.pushVoice_psc (v : VoiceId) : (s.pushVoice v).psc = s.psc := by rw [s.pushVoice_only v]
@[simp] theorem State.pushVoice_pst (v : VoiceId) : (s.pushVoice v).pst = s.pst := by rw [s.pushVoice_only v]
@[simp] theorem State.pushVoice_rpu (v : VoiceId) : (s.pushVoice v).rpu = s.rpu := by rw [s.pushVoice_only v]
@[simp] theorem State.pushVoice_mem (v : VoiceId) : (s.pushVoice v).mem = s.mem := by rw [s.pushVoice_only v]
@[simp] theorem State.pushVoice_flash (v : VoiceId) : (s.pushVoice v).flash = s.flash := by rw [s.pushVoice_only v]
@[simp] theorem State.pushVoice_openUsed (v : VoiceId) : (s.pushVoice v).openUsed = s.openUsed := by rw [s.pushVoice_only v]
@[simp] theorem State.pushVoice_pending (v : VoiceId) : (s.pushVoice v).pending = s.pending := by rw [s.pushVoice_only v]

@[simp] theorem State.voice_pushVoice (v w : VoiceId) : (s.pushVoice v).voice w = s.voice w := by
  unfold State.voice
  rw [State.pushVoice_val]

/-- The pushes of a voice depend on the engine's state alone. -/
theorem State.pushVoice_rfe (t : State) (v : VoiceId) (h : t.rfe = s.rfe) :
    (t.pushVoice v).rfe = (s.pushVoice v).rfe := by
  have push_rfe : ∀ (s t : State) (n : ChanId), t.rfe = s.rfe → (t.push n).rfe = (s.push n).rfe := by
    intro s t n h
    unfold State.push
    rw [h]
    split <;> simp [h]
  unfold State.pushVoice
  exact push_rfe _ _ _ (push_rfe _ _ _ (push_rfe _ _ _ h))

/-- Setting an override takes a new stamp, writes the entry and pushes the channel. -/
theorem State.setOverride_rfe (o : OscId) (code : Code) :
    (s.setOverride o code).rfe.stamp = s.rfe.stamp + 1 ∧
      tget (s.setOverride o code).rfe.overrides o = some ⟨code, s.rfe.stamp + 1⟩ ∧
      ∀ p : OscId, p ≠ o → tget (s.setOverride o code).rfe.overrides p = tget s.rfe.overrides p := by
  unfold State.setOverride
  rw [State.push_only]
  refine ⟨rfl, by simp, fun p hp => ?_⟩
  simp only
  rw [tget_tset_ne _ _ (Ne.symm hp)]

theorem State.setOverride_only (o : OscId) (code : Code) :
    s.setOverride o code =
      { s with rfe := { s.rfe with
        stamp := s.rfe.stamp + 1
        overrides := tset s.rfe.overrides o (some ⟨code, s.rfe.stamp + 1⟩)
        jump := (s.setOverride o code).rfe.jump } } := by
  unfold State.setOverride
  rw [State.push_only]

/-! ### Assignment (R5, R21) -/

/-- An assignment writes one voice record, moves the voice in the lists, advances the onset counter, pushes the voice's
channels and rewrites its image entry. -/
theorem State.assign_only (v : VoiceId) (e : HeldKey) (i : VoiceId) (multi : Bool) :
    s.assign v e i multi =
      { s with
        val := { s.val with
          onset := s.val.onset + 1
          free := s.val.free.erase v
          tune := s.val.tune.erase v
          busy := s.val.busy.erase v ++ [v]
          voices := tset s.val.voices v (assignedVoice s (s.voice v) e i multi) }
        rfe := { s.rfe with jump := (s.pushVoice v).rfe.jump }
        mem := (s.assign v e i multi).mem } := by
  have key : ∀ t : State, t.rfe = s.rfe →
      t.pushVoice v = { t with rfe := { s.rfe with jump := (s.pushVoice v).rfe.jump } } := by
    intro t ht
    have hr := State.pushVoice_rfe s t v ht
    have hs := congrArg State.rfe (s.pushVoice_only v)
    rw [State.pushVoice_only t, hr, ht]
  unfold State.assign
  simp only
  rw [key _ (by rw [State.putVoice_rfe]), State.putVoice_only]

@[simp] theorem State.assign_mpa (v : VoiceId) (e : HeldKey) (i : VoiceId) (multi : Bool) : (s.assign v e i multi).mpa = s.mpa := by rw [s.assign_only v e i multi]
@[simp] theorem State.assign_rqu (v : VoiceId) (e : HeldKey) (i : VoiceId) (multi : Bool) : (s.assign v e i multi).rqu = s.rqu := by rw [s.assign_only v e i multi]
@[simp] theorem State.assign_nrt (v : VoiceId) (e : HeldKey) (i : VoiceId) (multi : Bool) : (s.assign v e i multi).nrt = s.nrt := by rw [s.assign_only v e i multi]
@[simp] theorem State.assign_tun (v : VoiceId) (e : HeldKey) (i : VoiceId) (multi : Bool) : (s.assign v e i multi).tun = s.tun := by rw [s.assign_only v e i multi]
@[simp] theorem State.assign_prb (v : VoiceId) (e : HeldKey) (i : VoiceId) (multi : Bool) : (s.assign v e i multi).prb = s.prb := by rw [s.assign_only v e i multi]
@[simp] theorem State.assign_psc (v : VoiceId) (e : HeldKey) (i : VoiceId) (multi : Bool) : (s.assign v e i multi).psc = s.psc := by rw [s.assign_only v e i multi]
@[simp] theorem State.assign_pst (v : VoiceId) (e : HeldKey) (i : VoiceId) (multi : Bool) : (s.assign v e i multi).pst = s.pst := by rw [s.assign_only v e i multi]
@[simp] theorem State.assign_rpu (v : VoiceId) (e : HeldKey) (i : VoiceId) (multi : Bool) : (s.assign v e i multi).rpu = s.rpu := by rw [s.assign_only v e i multi]
@[simp] theorem State.assign_flash (v : VoiceId) (e : HeldKey) (i : VoiceId) (multi : Bool) : (s.assign v e i multi).flash = s.flash := by rw [s.assign_only v e i multi]
@[simp] theorem State.assign_openUsed (v : VoiceId) (e : HeldKey) (i : VoiceId) (multi : Bool) : (s.assign v e i multi).openUsed = s.openUsed := by rw [s.assign_only v e i multi]
@[simp] theorem State.assign_pending (v : VoiceId) (e : HeldKey) (i : VoiceId) (multi : Bool) : (s.assign v e i multi).pending = s.pending := by rw [s.assign_only v e i multi]

theorem State.voice_assign (v w : VoiceId) (e : HeldKey) (i : VoiceId) (multi : Bool) :
    (s.assign v e i multi).voice w = if v = w then assignedVoice s (s.voice v) e i multi else s.voice w := by
  rw [s.assign_only v e i multi]
  unfold State.voice
  simp only
  rw [tget_tset]

/-- An assigned voice is PENDING on its key, with its written flags and deferred release clear (R5). -/
theorem assignedVoice_fields (r : Voice) (e : HeldKey) (i : VoiceId) (multi : Bool) :
    let q := assignedVoice s r e i multi
    q.state = .pending ∧ q.key = some e.key ∧ q.velocity = e.velocity ∧ q.onset = s.val.onset + 1 ∧ q.unison = i ∧
      q.aWritten = false ∧ q.bWritten = false ∧ q.offDeferred = false ∧ q.part = r.part ∧
      q.glideActive = glideDecision (s.voicing r.part).glide multi := ⟨rfl, rfl, rfl, rfl, rfl, rfl, rfl, rfl, rfl, rfl⟩

/-! ### Freeing (R13) -/

/-- The record of a voice that becomes FREE keeps its part, key, velocity, onset, c, unison index and range flags. -/
def freedVoice (r : Voice) : Voice :=
  { r with
    state := .free, gapRunning := false, holdRunning := false, offDeferred := false, glideActive := false,
    aWritten := false, bWritten := false }

/-- A freeing writes one voice record, moves the voice to the tail of the free list, may dissolve its part's group and
rewrites its image entry. -/
theorem State.freeVoice_only (v : VoiceId) :
    s.freeVoice v =
      { s with
        val := { s.val with
          busy := s.val.busy.erase v
          tune := s.val.tune.erase v
          free := s.val.free.erase v ++ [v]
          voices := tset s.val.voices v (freedVoice (s.voice v))
          group := (s.freeVoice v).val.group }
        mem := (s.freeVoice v).mem } := by
  unfold State.freeVoice State.dissolve
  simp only
  split
  · simp only [State.putVoice_val]
    rw [State.putVoice_only]
    rfl
  · simp only [State.putVoice_val]
    rw [State.putVoice_only]
    rfl

@[simp] theorem State.freeVoice_mpa (v : VoiceId) : (s.freeVoice v).mpa = s.mpa := by rw [s.freeVoice_only v]
@[simp] theorem State.freeVoice_rqu (v : VoiceId) : (s.freeVoice v).rqu = s.rqu := by rw [s.freeVoice_only v]
@[simp] theorem State.freeVoice_nrt (v : VoiceId) : (s.freeVoice v).nrt = s.nrt := by rw [s.freeVoice_only v]
@[simp] theorem State.freeVoice_rfe (v : VoiceId) : (s.freeVoice v).rfe = s.rfe := by rw [s.freeVoice_only v]
@[simp] theorem State.freeVoice_tun (v : VoiceId) : (s.freeVoice v).tun = s.tun := by rw [s.freeVoice_only v]
@[simp] theorem State.freeVoice_prb (v : VoiceId) : (s.freeVoice v).prb = s.prb := by rw [s.freeVoice_only v]
@[simp] theorem State.freeVoice_psc (v : VoiceId) : (s.freeVoice v).psc = s.psc := by rw [s.freeVoice_only v]
@[simp] theorem State.freeVoice_pst (v : VoiceId) : (s.freeVoice v).pst = s.pst := by rw [s.freeVoice_only v]
@[simp] theorem State.freeVoice_rpu (v : VoiceId) : (s.freeVoice v).rpu = s.rpu := by rw [s.freeVoice_only v]
@[simp] theorem State.freeVoice_flash (v : VoiceId) : (s.freeVoice v).flash = s.flash := by rw [s.freeVoice_only v]
@[simp] theorem State.freeVoice_openUsed (v : VoiceId) : (s.freeVoice v).openUsed = s.openUsed := by rw [s.freeVoice_only v]
@[simp] theorem State.freeVoice_pending (v : VoiceId) : (s.freeVoice v).pending = s.pending := by rw [s.freeVoice_only v]

theorem State.voice_freeVoice (v w : VoiceId) :
    (s.freeVoice v).voice w = if v = w then freedVoice (s.voice v) else s.voice w := by
  rw [s.freeVoice_only v]
  unfold State.voice
  simp only
  rw [tget_tset]

/-- A release of one voice does one of four things (R11). -/
theorem State.releaseVoice_cases (v : VoiceId) :
    s.releaseVoice v = s ∨ s.releaseVoice v = s.putVoice v { s.voice v with offDeferred := true } ∨
      (s.releaseVoice v = s.putVoice v { s.voice v with state := .sustained } ∧ (s.voice v).state = .on ∧
        s.nrt.pedal.get (s.voice v).part = true) ∨
      (s.releaseVoice v = s.freeVoice v ∧ (s.voice v).state = .on ∧ s.nrt.pedal.get (s.voice v).part = false) := by
  unfold State.releaseVoice
  simp only
  split
  · exact Or.inr (Or.inl rfl)
  · next h =>
    split
    · exact Or.inr (Or.inl rfl)
    · split
      · next hp => exact Or.inr (Or.inr (Or.inl ⟨rfl, h, hp⟩))
      · next hp => exact Or.inr (Or.inr (Or.inr ⟨rfl, h, by simpa using hp⟩))
  · exact Or.inl rfl
  · exact Or.inl rfl
  · exact Or.inl rfl

/-- Evaluating the opening condition does nothing, opens the gate, or opens it and applies the hold expiry of a gate
hold of 0 in the same event (R9). -/
theorem State.evalOpen_cases (v : VoiceId) :
    s.evalOpen v = s ∨
      ((s.voice v).state = .pending ∧ (s.voice v).aWritten = true ∧ (s.voice v).bWritten = true ∧
        (s.voice v).gapRunning = false ∧
        (s.evalOpen v = s.putVoice v { s.voice v with state := .on, holdRunning := true } ∨
          s.mpa.setup.gateHold = 0 ∧
            s.evalOpen v = (s.putVoice v { s.voice v with state := .on, holdRunning := true }).holdExpire v)) := by
  unfold State.evalOpen
  simp only
  split
  · next h =>
    refine Or.inr ⟨h.1, h.2.1, h.2.2.1, h.2.2.2, ?_⟩
    split
    · next hh => exact Or.inr ⟨by simpa using hh, rfl⟩
    · exact Or.inl rfl
  · exact Or.inl rfl

/-- A voice taken by the Tuner was FREE and is TUNING in the tune set (R25). -/
theorem State.takeVoice_only (v : VoiceId) (h : (s.voice v).state = .free) :
    s.takeVoice v =
      { s with
        val := { s.val with
          free := s.val.free.erase v
          tune := s.val.tune ++ [v]
          voices := tset s.val.voices v { s.voice v with state := .tuning } }
        mem := (s.takeVoice v).mem } := by
  unfold State.takeVoice
  simp only [h, if_true]
  rw [State.putVoice_only]

end Sys2Proof.Machine
end

