-- ==== Sys2Proof/Laws/Cells.lean ====
section
/-! SUPPORT. What the writes of marks and results, the measure channels' operations and the conditionings do. -/

namespace Sys2Proof.Machine

variable (s : State)

/-! ### Clamps -/

theorem clampNat_bounds (lo hi x : Nat) (h : lo ≤ hi) : lo ≤ clampNat lo hi x ∧ clampNat lo hi x ≤ hi := by
  unfold clampNat
  split
  · omega
  · split <;> omega

theorem clampInt_bounds (lo hi x : Int) (h : lo ≤ hi) : lo ≤ clampInt lo hi x ∧ clampInt lo hi x ≤ hi := by
  unfold clampInt
  split
  · omega
  · split <;> omega

/-- A clamp to an index is the clamp of the integer. -/
theorem clampFin_val (n : Nat) (x : Int) : ((clampFin n x).val : Int) = clampInt 0 n x := by
  unfold clampFin clampInt
  split
  · rfl
  · next h =>
    split
    · next h' => rw [if_neg (by omega)]; simp; omega
    · next h' => rw [if_pos (by omega)]; simp

/-- A conditioned voicing block has its counts and ranges in bounds (R100). -/
theorem conditionVoicing_bounds (b : Vector Byte 8) :
    2 ≤ (conditionVoicing b).count ∧ (conditionVoicing b).count ≤ 12 ∧ (conditionVoicing b).bendRange ≤ 12 ∧
      -24 ≤ (conditionVoicing b).transpose ∧ (conditionVoicing b).transpose ≤ 24 := by
  have h1 := clampNat_bounds 2 12 b[1].toNat (by omega)
  have h2 := clampNat_bounds 0 12 b[4].toNat (by omega)
  have h3 := clampInt_bounds (-24) 24 b[5].toInt (by omega)
  exact ⟨h1.1, h1.2, h2.2, h3.1, h3.2⟩

/-- A setup field read at RUN entry lies in its range (R158). -/
theorem State.setupField_bounds (off width lo hi : Nat) (h : lo ≤ hi) :
    lo ≤ s.setupField off width lo hi ∧ s.setupField off width lo hi ≤ hi := clampNat_bounds _ _ _ h

/-! ### Held-key lists (R35, R36) -/

theorem heldAfterOn_length (l : List HeldKey) (e : HeldKey) (h : l.length ≤ Config.heldDepth) :
    (heldAfterOn l e).length ≤ Config.heldDepth := by
  unfold heldAfterOn
  split
  · next ha =>
    obtain ⟨x, hx, he⟩ := List.any_eq_true.1 ha
    have : (l.filter fun x => x.key != e.key).length < l.length := by
      refine List.length_filter_lt_length_iff_exists.2 ⟨x, hx, ?_⟩
      simpa using he
    simp
    omega
  · split
    · next hl => simp; omega
    · have : 0 < Config.heldDepth := by decide
      simp
      omega

theorem heldAfterOff_length (l : List HeldKey) (k : Key) : (heldAfterOff l k).length ≤ l.length :=
  List.length_filter_le _ _

/-! ### Marks and results (R163, R180) -/

theorem State.markCell_only (n : AreaId) (i : Nat) (m : Byte) :
    s.markCell n i m = { s with mem := (s.markCell n i m).mem } := by
  unfold State.markCell State.poke
  split
  · split <;> rfl
  · rfl

/-- A result write changes the cell and one attention bit. -/
theorem State.writeResult_only (n : AreaId) (i : Nat) (code : ResultCode) (data : List Byte) :
    s.writeResult n i code data =
      { s with
        mpa := { s.mpa with summary := (s.writeResult n i code data).mpa.summary }
        mem := (s.writeResult n i code data).mem } := by
  unfold State.writeResult
  split
  · next a _ =>
    have h := State.pokes_only (s.poke (a + 3) code.code) (a + 6) data
    unfold State.attention State.poke at *
    simp only
    split <;> rw [h] <;> split <;> rfl
  · rfl

theorem State.writeResult_wf (n : AreaId) (i : Nat) (code : ResultCode) (data : List Byte)
    (h : Memory.wf Config.memFill Config.memSize s.mem = true) :
    Memory.wf Config.memFill Config.memSize (s.writeResult n i code data).mem = true := by
  unfold State.writeResult
  split
  · rw [State.attention_mem]
    exact State.poke_wf _ _ _ (State.pokes_wf _ _ _ (State.poke_wf _ _ _ h))
  · exact h

/-! ### Measure channels (R76) -/

@[simp] theorem State.chan_putChan (c d : CardId) (m : MeasChan) :
    (s.putChan c m).chan d = if c = d then m else s.chan d := by
  unfold State.chan
  rw [State.putChan_tun]
  exact tget_tset _ _ _ _

/-- Setting a code sets an override and puts the channel into SETTING with the stamp it got back. -/
theorem State.setCode_only (c : CardId) (o : OscId) (code : Code) :
    s.setCode c o code =
      (s.setOverride o code).putChan c
        { s.chan c with
          state := .setting, code := code, expected := s.rfe.stamp + 1, select := selectOf o, periods := none } := by
  have h1 : (s.setOverride o code).rfe.stamp = s.rfe.stamp + 1 := (s.setOverride_rfe o code).1
  have h2 : (s.setOverride o code).chan c = s.chan c := by
    unfold State.chan
    rw [State.setOverride_only]
  unfold State.setCode
  simp only
  rw [h1, h2]

/-- The table that a calibration load installs rises (R93). -/
theorem tableRises_loadedTable (t : Vector Code 9) : tableRises (loadedTable t) = true := by
  unfold loadedTable
  split
  · next h => exact h
  · decide

/-! ### The commands -/

/-- Every command answers a next state: none faults, none is refused. -/
theorem exec_next (c : Instr) : ∃ t, exec c s = .next t := by
  cases c <;> exact ⟨_, rfl⟩

end Sys2Proof.Machine
end

