-- ==== Sys2Proof/Laws/Lines.lean ====
section
/-! SUPPORT. What the part's lines carry: the open port and its read cycles, the DAC word, the switch matrix, RESET; and
the looks at the end of an event. -/

namespace Sys2Proof.Machine

variable (s : State)

/-! ### RESET and the port (R153, R207) -/

@[simp] theorem State.portOpen_eq : s.portOpen = true ↔ s.mpa.device ≠ .held := by simp [State.portOpen]

/-- A host write acts on an open port and is lost while RESET is held low. -/
theorem State.ifOpen_eq (f : State → State) : s.ifOpen f = if s.mpa.device = .held then s else f s := by
  simp only [State.ifOpen, State.portOpen_eq, ite_not]

@[simp] theorem State.ifOpen_held (f : State → State) (h : s.mpa.device = .held) : s.ifOpen f = s := by
  rw [State.ifOpen_eq, if_pos h]

@[simp] theorem State.ifOpen_open (f : State → State) (h : s.mpa.device ≠ .held) : s.ifOpen f = f s := by
  rw [State.ifOpen_eq, if_neg h]

@[simp] theorem State.ifOpen_id : s.ifOpen (fun s => s) = s := by rw [State.ifOpen_eq]; split <;> rfl

/-- The device state after each kind of device reset. -/
@[simp] theorem State.deviceReset_device (held : Bool) :
    (s.deviceReset held).mpa.device = if held then .held else .starting := by cases held <;> rfl

@[simp] theorem State.deviceReset_mem (held : Bool) : (s.deviceReset held).mem = [] := by cases held <;> rfl

@[simp] theorem State.deviceReset_pending (held : Bool) : (s.deviceReset held).pending = s.pending := rfl

@[simp] theorem State.deviceReset_flash (held : Bool) : (s.deviceReset held).flash = s.cutFlash.flash := rfl

@[simp] theorem State.deviceReset_step_held : (s.deviceReset true).pst.step = none := rfl

@[simp] theorem State.deviceReset_slot_held : (s.deviceReset true).rfe.slot = none := rfl

/-- Without a flash step in progress a reset cuts nothing off. -/
@[simp] theorem State.cutFlash_none (h : s.pst.step = none) : s.cutFlash = s := by simp [State.cutFlash, h]

/-- A read cycle that the part does not answer. -/
theorem State.hostReadCycle_held (r : HostRead) (h : s.mpa.device = .held) : s.hostReadCycle r = ⟨none, none⟩ := by
  cases r <;> simp [State.hostReadCycle, State.portOpen, h]

/-- A one-byte read and a wide read at an odd offset give the same byte on the high lane. -/
theorem State.hostReadCycle_odd (off : BitVec 14) (h : off.toNat % 2 = 1) :
    s.hostReadCycle (.wide off) = s.hostReadCycle (.byte off) := by
  simp only [State.hostReadCycle, if_neg (by omega : ¬ off.toNat % 2 = 0)]

/-! ### The DAC (R62, R63) -/

/-- The DAC takes from the word the code that went into it. -/
@[simp] theorem wordCode_dacWord (c : Code) : wordCode (dacWord c) = c := by
  apply Fin.ext
  have h : (dacWord c).toNat % 65536 = c.val := by
    unfold dacWord
    rw [BitVec.toNat_append, BitVec.toNat_ofNat, Nat.shiftLeft_eq]
    have := c.isLt
    rw [← Nat.shiftLeft_eq, Nat.mod_eq_of_lt (by omega : c.val < 2 ^ 16), ← Nat.shiftLeft_add_eq_or_of_lt (by omega),
      Nat.shiftLeft_eq]
    omega
  exact h

/-- DAC_CS is low, and DAC_CLK runs, exactly while a slot's word is being shifted. -/
theorem State.dacCs_eq : s.dacCs = !(s.rfe.slot.any fun k => !k.strobing) := by
  unfold State.dacCs
  cases s.rfe.slot <;> simp

/-! ### The switch matrix (R124) -/

/-- Matrix switch 8d + w reads closed when SWSw is low under SWDd. -/
theorem readsClosed_matrix (x : SwitchLevels) (d w : Fin 8) :
    readsClosed x ⟨8 * d.val + w.val, by omega⟩ = !(tget x.sense d).getLsbD w.val := by
  have h1 : 8 * d.val + w.val < 64 := by omega
  have h2 : (8 * d.val + w.val) / 8 = d.val := by omega
  have h3 : (8 * d.val + w.val) % 8 = w.val := by omega
  simp only [readsClosed, h1, dif_pos, h2, h3]

/-- Switches 64 and 65 read closed when their pedal lines are low. -/
theorem readsClosed_pedal (x : SwitchLevels) (p : Fin 2) :
    readsClosed x ⟨64 + p.val, by omega⟩ = !x.pedals.getLsbD p.val := by
  simp [readsClosed]

/-! ### The looks at the end of an event (R87, R90) -/

/-- An event that frees no voice and idles no channel has no looks. -/
theorem State.looksAfter_none (t : State) (h : ∀ c, State.lookCalled s t c = false) : State.looksAfter s t = t := by
  unfold State.looksAfter
  generalize allCards = l
  induction l with
  | nil => rfl
  | cons c l ih => rw [List.foldl_cons, h c]; exact ih

/-- An event that leaves voices and channels as they were has no looks. -/
theorem State.looksAfter_same (t : State) (hv : t.val = s.val) (hc : t.tun = s.tun) : State.looksAfter s t = t := by
  apply State.looksAfter_none
  intro c
  have h1 : ∀ v, t.voice v = s.voice v := fun v => by simp [State.voice, hv]
  have h2 : ∀ d, t.chan d = s.chan d := fun d => by simp [State.chan, hc]
  simp [State.lookCalled, h1, h2]

end Sys2Proof.Machine
end

