-- ==== Sys2Proof/Laws/PerInstr.lean ====
section
/-! SUPPORT. One statement about every command as syntax, lemma by lemma: what a well-formed command gives the part is
bounded — a residue names at most the 512 bytes of a page, a count of clocks fits the measure channel's counter. -/

namespace Sys2Proof.Laws

/-- A well-formed command's residue is at most a page and its count of clocks is below 2^20. -/
def ClocksBounded.Statement (i : Instr) : Prop :=
  i.wf = true →
    (∀ residue, i = .eraseCompletion residue → residue.length ≤ 512) ∧
      (∀ c clocks, i = .measurementCompletion c clocks → clocks < 2 ^ 20) ∧
      ∀ c clocks, i = .tinRisingEdge c clocks → clocks < 2 ^ 20

/-- The offsets of a well-formed residue rise strictly. -/
theorem ClocksBounded.residue_rises (l : List (Fin 512 × Byte)) (h : residueWf l = true) : (l.map Prod.fst).Pairwise (· < ·) := by
  induction l with
  | nil => exact List.Pairwise.nil
  | cons x l ih =>
    obtain ⟨o, b⟩ := x
    simp only [residueWf, Bool.and_eq_true] at h
    have hl := ih h.2
    refine List.pairwise_cons.2 ⟨?_, hl⟩
    cases l with
    | nil => simp
    | cons y l =>
      obtain ⟨o', b'⟩ := y
      have ho : o < o' := by simpa using h.1.2
      intro q hq
      simp only [List.map_cons, List.mem_cons] at hq
      rcases hq with rfl | hq
      · exact ho
      · exact lt_trans ho ((List.pairwise_cons.1 hl).1 q (by simpa using hq))

theorem ClocksBounded.deviceReset (held : Bool) : ClocksBounded.Statement (.deviceReset held) :=
  fun _ => ⟨fun _ h => (by cases h), fun _ _ h => (by cases h), fun _ _ h => (by cases h)⟩

theorem ClocksBounded.run : ClocksBounded.Statement .run :=
  fun _ => ⟨fun _ h => (by cases h), fun _ _ h => (by cases h), fun _ _ h => (by cases h)⟩

theorem ClocksBounded.restart : ClocksBounded.Statement .restart :=
  fun _ => ⟨fun _ h => (by cases h), fun _ _ h => (by cases h), fun _ _ h => (by cases h)⟩

theorem ClocksBounded.summaryEcho (high : Bool) (data : Byte) : ClocksBounded.Statement (.summaryEcho high data) :=
  fun _ => ⟨fun _ h => (by cases h), fun _ _ h => (by cases h), fun _ _ h => (by cases h)⟩

theorem ClocksBounded.enableWrite (high : Bool) (data : Byte) : ClocksBounded.Statement (.enableWrite high data) :=
  fun _ => ⟨fun _ h => (by cases h), fun _ _ h => (by cases h), fun _ _ h => (by cases h)⟩

theorem ClocksBounded.hostMemoryWrite (w : HostWrite) : ClocksBounded.Statement (.hostMemoryWrite w) :=
  fun _ => ⟨fun _ h => (by cases h), fun _ _ h => (by cases h), fun _ _ h => (by cases h)⟩

theorem ClocksBounded.arrival (n : AreaId) (other : Option Byte) : ClocksBounded.Statement (.arrival n other) :=
  fun _ => ⟨fun _ h => (by cases h), fun _ _ h => (by cases h), fun _ _ h => (by cases h)⟩

theorem ClocksBounded.look (n : AreaId) : ClocksBounded.Statement (.look n) :=
  fun _ => ⟨fun _ h => (by cases h), fun _ _ h => (by cases h), fun _ _ h => (by cases h)⟩

theorem ClocksBounded.keyOn (n : AreaId) (part key velocity source : Byte) : ClocksBounded.Statement (.keyOn n part key velocity source) :=
  fun _ => ⟨fun _ h => (by cases h), fun _ _ h => (by cases h), fun _ _ h => (by cases h)⟩

theorem ClocksBounded.keyOff (n : AreaId) (part key source : Byte) : ClocksBounded.Statement (.keyOff n part key source) :=
  fun _ => ⟨fun _ h => (by cases h), fun _ _ h => (by cases h), fun _ _ h => (by cases h)⟩

theorem ClocksBounded.bend (n : AreaId) (part : Byte) (value : BitVec 16) (source : Byte) : ClocksBounded.Statement (.bend n part value source) :=
  fun _ => ⟨fun _ h => (by cases h), fun _ _ h => (by cases h), fun _ _ h => (by cases h)⟩

theorem ClocksBounded.pedal (n : AreaId) (part velocity source : Byte) : ClocksBounded.Statement (.pedal n part velocity source) :=
  fun _ => ⟨fun _ h => (by cases h), fun _ _ h => (by cases h), fun _ _ h => (by cases h)⟩

theorem ClocksBounded.allOff (n : AreaId) (part source : Byte) : ClocksBounded.Statement (.allOff n part source) :=
  fun _ => ⟨fun _ h => (by cases h), fun _ _ h => (by cases h), fun _ _ h => (by cases h)⟩

theorem ClocksBounded.setParam (n : AreaId) (id : Byte) (value : BitVec 16) : ClocksBounded.Statement (.setParam n id value) :=
  fun _ => ⟨fun _ h => (by cases h), fun _ _ h => (by cases h), fun _ _ h => (by cases h)⟩

theorem ClocksBounded.setVoicing (n : AreaId) (part : Byte) (block : Vector Byte 8) : ClocksBounded.Statement (.setVoicing n part block) :=
  fun _ => ⟨fun _ h => (by cases h), fun _ _ h => (by cases h), fun _ _ h => (by cases h)⟩

theorem ClocksBounded.setKeyboard (n : AreaId) (mode split : Byte) (map : BitVec 16) : ClocksBounded.Statement (.setKeyboard n mode split map) :=
  fun _ => ⟨fun _ h => (by cases h), fun _ _ h => (by cases h), fun _ _ h => (by cases h)⟩

theorem ClocksBounded.selectEdit (n : AreaId) (part : Byte) : ClocksBounded.Statement (.selectEdit n part) :=
  fun _ => ⟨fun _ h => (by cases h), fun _ _ h => (by cases h), fun _ _ h => (by cases h)⟩

theorem ClocksBounded.mapKnob (n : AreaId) (knob target mode : Byte) : ClocksBounded.Statement (.mapKnob n knob target mode) :=
  fun _ => ⟨fun _ h => (by cases h), fun _ _ h => (by cases h), fun _ _ h => (by cases h)⟩

theorem ClocksBounded.mapSwitch (n : AreaId) (switch func : Byte) : ClocksBounded.Statement (.mapSwitch n switch func) :=
  fun _ => ⟨fun _ h => (by cases h), fun _ _ h => (by cases h), fun _ _ h => (by cases h)⟩

theorem ClocksBounded.partExport (n : AreaId) (part : Byte) (offset : BitVec 16) : ClocksBounded.Statement (.partExport n part offset) :=
  fun _ => ⟨fun _ h => (by cases h), fun _ _ h => (by cases h), fun _ _ h => (by cases h)⟩

theorem ClocksBounded.partImport (n : AreaId) (part : Byte) (offset : BitVec 16) : ClocksBounded.Statement (.partImport n part offset) :=
  fun _ => ⟨fun _ h => (by cases h), fun _ _ h => (by cases h), fun _ _ h => (by cases h)⟩

theorem ClocksBounded.clearRange (n : AreaId) (mask : BitVec 24) : ClocksBounded.Statement (.clearRange n mask) :=
  fun _ => ⟨fun _ h => (by cases h), fun _ _ h => (by cases h), fun _ _ h => (by cases h)⟩

theorem ClocksBounded.tune (n : AreaId) (oscMask : BitVec 32) (anchorMask : BitVec 16) (mode background : Byte) : ClocksBounded.Statement (.tune n oscMask anchorMask mode background) :=
  fun _ => ⟨fun _ h => (by cases h), fun _ _ h => (by cases h), fun _ _ h => (by cases h)⟩

theorem ClocksBounded.tuneAbort (n : AreaId) : ClocksBounded.Statement (.tuneAbort n) :=
  fun _ => ⟨fun _ h => (by cases h), fun _ _ h => (by cases h), fun _ _ h => (by cases h)⟩

theorem ClocksBounded.recall (n : AreaId) (slot part : Byte) : ClocksBounded.Statement (.recall n slot part) :=
  fun _ => ⟨fun _ h => (by cases h), fun _ _ h => (by cases h), fun _ _ h => (by cases h)⟩

theorem ClocksBounded.store (n : AreaId) (part slot flags : Byte) : ClocksBounded.Statement (.store n part slot flags) :=
  fun _ => ⟨fun _ h => (by cases h), fun _ _ h => (by cases h), fun _ _ h => (by cases h)⟩

theorem ClocksBounded.eraseSlot (n : AreaId) (slot : Byte) : ClocksBounded.Statement (.eraseSlot n slot) :=
  fun _ => ⟨fun _ h => (by cases h), fun _ _ h => (by cases h), fun _ _ h => (by cases h)⟩

theorem ClocksBounded.slotInfo (n : AreaId) (slot : Byte) : ClocksBounded.Statement (.slotInfo n slot) :=
  fun _ => ⟨fun _ h => (by cases h), fun _ _ h => (by cases h), fun _ _ h => (by cases h)⟩

theorem ClocksBounded.storeCal (n : AreaId) : ClocksBounded.Statement (.storeCal n) :=
  fun _ => ⟨fun _ h => (by cases h), fun _ _ h => (by cases h), fun _ _ h => (by cases h)⟩

theorem ClocksBounded.revertCal (n : AreaId) : ClocksBounded.Statement (.revertCal n) :=
  fun _ => ⟨fun _ h => (by cases h), fun _ _ h => (by cases h), fun _ _ h => (by cases h)⟩

theorem ClocksBounded.storeStatus (n : AreaId) : ClocksBounded.Statement (.storeStatus n) :=
  fun _ => ⟨fun _ h => (by cases h), fun _ _ h => (by cases h), fun _ _ h => (by cases h)⟩

theorem ClocksBounded.programCompletion (readBack : Byte) : ClocksBounded.Statement (.programCompletion readBack) :=
  fun _ => ⟨fun _ h => (by cases h), fun _ _ h => (by cases h), fun _ _ h => (by cases h)⟩

theorem ClocksBounded.eraseCompletion (residue : List (Fin 512 × Byte)) : ClocksBounded.Statement (.eraseCompletion residue) := by
  refine fun h => ⟨fun r hr => ?_, fun _ _ hr => (by cases hr), fun _ _ hr => (by cases hr)⟩
  cases hr
  have hn : (residue.map Prod.fst).Nodup := (ClocksBounded.residue_rises residue h).imp fun hlt => ne_of_lt hlt
  simpa using hn.length_le_card

theorem ClocksBounded.readCompletion : ClocksBounded.Statement .readCompletion :=
  fun _ => ⟨fun _ h => (by cases h), fun _ _ h => (by cases h), fun _ _ h => (by cases h)⟩

theorem ClocksBounded.load : ClocksBounded.Statement .load :=
  fun _ => ⟨fun _ h => (by cases h), fun _ _ h => (by cases h), fun _ _ h => (by cases h)⟩

theorem ClocksBounded.channelWritten : ClocksBounded.Statement .channelWritten :=
  fun _ => ⟨fun _ h => (by cases h), fun _ _ h => (by cases h), fun _ _ h => (by cases h)⟩

theorem ClocksBounded.gapExpiry (v : VoiceId) : ClocksBounded.Statement (.gapExpiry v) :=
  fun _ => ⟨fun _ h => (by cases h), fun _ _ h => (by cases h), fun _ _ h => (by cases h)⟩

theorem ClocksBounded.holdExpiry (v : VoiceId) : ClocksBounded.Statement (.holdExpiry v) :=
  fun _ => ⟨fun _ h => (by cases h), fun _ _ h => (by cases h), fun _ _ h => (by cases h)⟩

theorem ClocksBounded.glideExpiry : ClocksBounded.Statement .glideExpiry :=
  fun _ => ⟨fun _ h => (by cases h), fun _ _ h => (by cases h), fun _ _ h => (by cases h)⟩

theorem ClocksBounded.settleExpiry (c : CardId) : ClocksBounded.Statement (.settleExpiry c) :=
  fun _ => ⟨fun _ h => (by cases h), fun _ _ h => (by cases h), fun _ _ h => (by cases h)⟩

theorem ClocksBounded.measurementCompletion (c : CardId) (clocks : Nat) : ClocksBounded.Statement (.measurementCompletion c clocks) := by
  refine fun h => ⟨fun _ hr => (by cases hr), fun _ _ hr => ?_, fun _ _ hr => ?_⟩ <;> cases hr
  simpa [Instr.wf, clocksWf] using h

theorem ClocksBounded.noSignal (c : CardId) : ClocksBounded.Statement (.noSignal c) :=
  fun _ => ⟨fun _ h => (by cases h), fun _ _ h => (by cases h), fun _ _ h => (by cases h)⟩

theorem ClocksBounded.knobScanExpiry : ClocksBounded.Statement .knobScanExpiry :=
  fun _ => ⟨fun _ h => (by cases h), fun _ _ h => (by cases h), fun _ _ h => (by cases h)⟩

theorem ClocksBounded.knobSample (raw : ParamVal) : ClocksBounded.Statement (.knobSample raw) :=
  fun _ => ⟨fun _ h => (by cases h), fun _ _ h => (by cases h), fun _ _ h => (by cases h)⟩

theorem ClocksBounded.switchSample (levels : SwitchLevels) : ClocksBounded.Statement (.switchSample levels) :=
  fun _ => ⟨fun _ h => (by cases h), fun _ _ h => (by cases h), fun _ _ h => (by cases h)⟩

theorem ClocksBounded.roomEvent (n : AreaId) (other : Option Byte) : ClocksBounded.Statement (.roomEvent n other) :=
  fun _ => ⟨fun _ h => (by cases h), fun _ _ h => (by cases h), fun _ _ h => (by cases h)⟩

theorem ClocksBounded.tinRisingEdge (c : CardId) (clocks : Nat) : ClocksBounded.Statement (.tinRisingEdge c clocks) := by
  refine fun h => ⟨fun _ hr => (by cases hr), fun _ _ hr => ?_, fun _ _ hr => ?_⟩ <;> cases hr
  simpa [Instr.wf, clocksWf] using h

end Sys2Proof.Laws
end

