-- ==== Sys2Proof/Tests/Slice0.lean ====
section
/-! SUPPORT. The model's own tests: ill-formed commands refused, one step of the commands on small states with results
taken from the spec, and a witness for the hypotheses of every statement that has some. -/

set_option maxRecDepth 20000

namespace Sys2Proof.Tests

open Sys2Proof Sys2Proof.Machine

/-! ### Ill-formed commands -/

/-- A residue byte of 0xFF is no residue. -/
theorem test_residue_blank_refused : (Instr.eraseCompletion [(3, 0xFF)]).wf = false := by decide

/-- Offsets of a residue rise. -/
theorem test_residue_order_refused : (Instr.eraseCompletion [(3, 0x01), (3, 0x02)]).wf = false := by decide

/-- A count beyond 20 bits is refused. -/
theorem test_clocks_refused : (Instr.measurementCompletion 0 1048576).wf = false ∧
    (Instr.tinRisingEdge 0 1048576).wf = false := by decide

/-- The largest count and a rising residue are well formed. -/
theorem test_wf_accepts : (Instr.tinRisingEdge 3 1048575).wf = true ∧
    (Instr.eraseCompletion [(0, 0x00), (511, 0xFE)]).wf = true := by decide

/-- No row of the opcode table has bits. -/
theorem test_no_word_decodes : decodeTableWord 32 5 = none ∧ State.reset.withFetchWord 32 5 = State.reset := by
  exact ⟨rfl, rfl⟩

/-! ### Small states -/

/-- An area of a kind at 4-byte units, its examine or fill cell being cell 0. -/
def ring (kind : AreaKind) (start stop : Nat) : Area :=
  ⟨kind, start, stop, cellCount kind start stop, 0, 0, true⟩

/-- The part in RUN with NOTE area 0 at 128, REQUEST area 1 at 256, REPORT area 2 at 512 with every join, and IMAGE
area 3 at 1024. -/
def small : State :=
  { State.reset with
    mpa :=
      { State.reset.mpa with
        device := .run
        areas := #v[some (ring .note 32 40), some (ring .request 64 96), some { ring .report 128 132 with joins := 15 },
          some (ring .image 256 344), none, none, none, none] }
    rpu :=
      { State.reset.rpu with
        panelArea := some 2
        tuneArea := some 2
        voiceArea := some 2
        faultArea := some 2 }
    pst := { State.reset.pst with step := none, service := none } }

/-- The state a command leads to. -/
def after (c : Instr) (s : State) : State :=
  match exec c s with
  | .next t => t
  | .fault _ | .refused _ => s

/-- A state with another record of one voice, and its lists. -/
def withVoice (s : State) (v : VoiceId) (f : Voice → Voice) (free busy tune : List VoiceId) : State :=
  { s with val :=
    { s.val with voices := tset s.val.voices v (f (s.voice v)), free := free, busy := busy, tune := tune } }

/-- Voice 0 of part A is ON with key 60. -/
def sounding : State :=
  withVoice small 0 (fun r => { r with state := .on, key := some 60, velocity := 100, onset := 1 })
    [1, 2, 3, 4, 5, 6, 7, 8, 9, 10, 11] [0] []

/-- Channel 0 counts for oscillator 0 at anchor 0. -/
def counting (step counter : Nat) : State :=
  small.putChan 0
    { small.chan 0 with
      state := .counting, osc := some 0, voice := some 0, code := 12288, step := step, counter := counter,
      periods := some 0 }

/-- A voicing block as a request carries it: MONO, count 1, LOW, OFF, range 13, transpose −25, OLDEST, SINGLE. -/
def block : Vector Byte 8 := #v[1, 1, 1, 0, 13, 0xE7, 0, 1]

/-! ### One step of each command -/

theorem test_device_reset : (after (.deviceReset false) sounding).val.busy = [] ∧
    (after (.deviceReset false) sounding).mpa.device = .starting := by decide

/-- While RESET is low a host write is lost, HD is not driven, and DAC_CS is high and DAC_CLK low (R207). -/
theorem test_reset_held : let s := after (.deviceReset true) sounding
    (after (.hostMemoryWrite (.byte 5 1)) s).peek 5 = 0 ∧ s.hostReadCycle (.byte 0x3FF0) = ⟨none, none⟩ ∧
      s.dacCs = true ∧ s.dacClk 1 = false := by decide

/-- A read with both byte enables at an odd offset takes the one byte there (R153). -/
theorem test_odd_wide_read : ({ small with mem := [(100, 7), (101, 9), (102, 5)] } : State).hostReadCycle (.wide 101) =
    ⟨none, some 9⟩ := by decide

/-- The first eight bits of a shift are 0x30, the next sixteen the code, 30720 (R63). -/
theorem test_dac_pins : (List.range 24).map (fun i => State.reset.dacData (Fin.ofNat 48 (2 * i))) =
    [false, false, true, true, false, false, false, false, false, true, true, true, true, false, false, false,
      false, false, false, false, false, false, false, false] := by decide

/-- SWS3 low under SWD2 is switch 19 closed; PDL1 low is switch 65 closed (R124). -/
theorem test_reads_closed : ((List.finRange 66).filter
    (readsClosed ⟨#v[0xFF, 0xFF, 0xF7, 0xFF, 0xFF, 0xFF, 0xFF, 0xFF], 0b01⟩)) = [19, 65] := by decide

/-- An empty directory passes, and a setup block of zeros is clamped (R158, R160). -/
theorem test_run : let t := after .run { State.reset with mpa := { State.reset.mpa with device := .setup } }
    t.mpa.device = .run ∧ t.mpa.setup.targetT = 120000 ∧ t.mpa.setup.dwell = 1 := by decide

/-- The voice that was busy goes to the free list's tail (R28). -/
theorem test_restart : (after .restart sounding).mpa.summary = 256 ∧
    (after .restart sounding).val.free = [1, 2, 3, 4, 5, 6, 7, 8, 9, 10, 11, 0] := by decide

theorem test_summary_echo :
    (after (.summaryEcho false 0x01) { small with mpa := { small.mpa with summary := 0x103 } }).mpa.summary = 0x102 := by
  decide

theorem test_enable_write : (after (.enableWrite true 0xFF) small).mpa.enable = 0x100 := by decide

/-- At an odd offset a pair is the high lane's byte (R153). -/
theorem test_host_memory_write : (after (.hostMemoryWrite (.wide 101 1 2)) small).peek 101 = 2 ∧
    (after (.hostMemoryWrite (.byte 0x3FF0 0x02)) small).mpa.device = .setup := by decide

/-- A posted cell of kind 0 is no request: BAD_KIND (R173, R199). -/
theorem test_arrival : (after (.arrival 1 none) small).peek 259 = 0x10 ∧ (after (.arrival 1 none) small).peek 256 = 0x3C := by
  decide

/-- A look finds the posted KEY_ON of key 64, velocity 1. -/
theorem test_look :
    let t := after (.look 0) (((((small.poke 128 0xA5).poke 129 1).poke 130 1).poke 131 64).poke 132 1)
    (t.voice 0).key = some 64 ∧ t.peek 128 = 0 := by decide

theorem test_key_on : (after (.keyOn 0 1 60 200 0) small).val.busy = [0] ∧
    ((after (.keyOn 0 1 60 200 0) small).voice 0).velocity = 127 := by decide

/-- A note cell of key 128 reports NOTE_FAULT with reason 3 and its source byte (R30, R187). -/
theorem test_key_on_fault : (after (.keyOn 0 1 128 1 9) { small with mem := [] }).peeks 512 8 =
    [0x96, 0x06, 0, 0, 0, 0, 9, 3] := by decide

theorem test_key_off : ((after (.keyOff 0 1 60 0) sounding).voice 0).state = .free := by decide

/-- Under the pedal an ON voice whose hold has run becomes SUSTAINED (R11). -/
theorem test_key_off_pedal :
    ((after (.keyOff 0 1 60 0) { sounding with nrt := { sounding.nrt with pedal := ⟨true, false⟩ } }).voice 0).state =
      .sustained := by decide

theorem test_bend : (after (.bend 0 0 0x7FFF 0) small).nrt.bend = ⟨8191, 0⟩ := by decide

theorem test_pedal : (after (.pedal 0 2 1 0) small).nrt.pedal = ⟨false, true⟩ := by decide

theorem test_all_off : (after (.allOff 0 1 0) sounding).val.busy = [] := by decide

/-- A value above 4095 becomes 4095, in the image too (R98, R109). -/
theorem test_set_param : (tget (after (.setParam 1 0 5000) small).prb.params 0).val = 4095 ∧
    (after (.setParam 1 0 5000) small).peeks 1024 2 = [0xFF, 0x0F] := by decide

/-- A SET_PARAM that repeats the value its parameter holds, 2200, as another knob left it, detaches the attached CATCH knob
at 2520 (R98); it does not write at 2300, and attaches when it crosses to 2190 (R119). -/
theorem test_set_param_repeats :
    let k : Knob := ⟨2520, .catchMode, .absolute 4, false, .below⟩
    let s := (small.storeParam 4 2200).putKnob 20 k
    let t := after (.setParam 1 4 2200) s
    t.knob 20 = { k with detached := true, side := .above } ∧
      tget (t.knobAction 20 2520 2300).prb.params 4 = 2200 ∧ tget (t.knobAction 20 2520 2190).prb.params 4 = 2190 ∧
      ((t.knobAction 20 2520 2190).knob 20).detached = false := by decide

theorem test_set_voicing : (after (.setVoicing 1 2 block) small).prb.voicing.b =
    ⟨.mono, 2, .low, .off, 12, -24, .oldest, false, .single⟩ := by decide

theorem test_set_keyboard : let t := after (.setKeyboard 1 2 200 0x803) small
    (t.voice 11).part = .B ∧ (t.voice 2).part = .A ∧ t.nrt.split = 127 ∧ t.nrt.mode = .layer := by decide

theorem test_select_edit : (after (.selectEdit 1 2) small).prb.edit = .B := by decide

theorem test_map_knob : (after (.mapKnob 1 5 79 2) small).knob 5 = ⟨0, .catchMode, .editRelative 15, true, .below⟩ := by
  decide

theorem test_map_switch : (tget (after (.mapSwitch 1 65 9) small).psc.switches 65).func = .report := by decide

/-- The last offset a range may begin at (R106). -/
theorem test_part_export : (after (.partExport 1 1 0x1FC8) small).peeks 0x1FC8 2 = [0x00, 0x08] ∧
    (after (.partExport 1 1 0x1FC9) small).peek 259 = 0x12 := by decide

/-- A range of zeros is conditioned into POLY, count 2, OLDEST, MULTI (R100, R107, R201). -/
theorem test_part_import : (importData (small.peeks 0x0080 56)).voicing =
    some ⟨.poly, 2, .last, .off, 0, 0, .oldest, false, .multi⟩ ∧
    (after (.partImport 1 3 0x0080) small).peek 259 = 0x12 := by decide

theorem test_clear_range :
    let s := withVoice small 11 (fun r => { r with stickyB := true, dynA := true }) small.val.free [] []
    (after (.clearRange 1 0x800000) s).peeks 262 6 = [0, 0, 0x80, 0, 0, 0x40] ∧
      ((after (.clearRange 1 0x800000) s).voice 11).stickyB = false := by decide

/-- A FULL search starts from 12288 + 6144k with step 512 (R79). -/
theorem test_tune : let t := after (.tune 1 1 0x100 0 0) small
    t.peek 256 = 0xC3 ∧ (t.chan 0).code = 61440 ∧ (t.chan 0).step = 512 ∧ (t.voice 0).state = .tuning := by decide

theorem test_tune_abort : (after (.tuneAbort 1) small).peek 259 = 0x23 := by decide

theorem test_recall : (after (.recall 1 0 1) small).peek 259 = 0x20 := by decide

/-- With no head, the ERASED page of the lowest number is opened: its region byte comes first (R131, R134). -/
theorem test_store : (after (.store 1 1 199 3) small).pst.step = some (.program 4 2 0x50 (.header false)) := by decide

theorem test_erase_slot : (after (.eraseSlot 1 200) small).peek 259 = 0x12 := by decide

theorem test_slot_info : (after (.slotInfo 1 7) small).peek 259 = 0x20 := by decide

/-- The erase code after reset is 6: 8 ms (R130, R158). -/
theorem test_store_cal : (after (.storeCal 1) small).pst.step = some (.erase 0 8) := by decide

theorem test_revert_cal : (after (.revertCal 1) small).peek 259 = 0x23 := by decide

/-- Sixty ERASED patch pages, no BAD page, no live slot (R144). -/
theorem test_store_status : (after (.storeStatus 1) small).peeks 262 3 = [60, 0, 0] := by decide

theorem test_program_completion :
    (after (.programCompletion 0x51) { small with pst := { small.pst with step := some (.program 63 511 0x50 .recByte) } }).flashByte 63 511
      = 0x51 := by decide

theorem test_erase_completion : (tget (after (.eraseCompletion [(0, 0x7F)])
    { small with pst := { small.pst with step := some (.erase 4 8) } }).pst.pages 4).state = .bad := by decide

theorem test_read_completion :
    (after .readCompletion { small with flash := [(513, 0x12)], pst := { small.pst with step := some (.read 1 0 3) } }).pst.buffer
      = [0xFF, 0x12, 0xFF] := by decide

/-- Pitch 15360 under the nominal table is code 30720 (R53). -/
theorem test_load : (after .load State.reset).rfe.dacOut = 30720 ∧ dacWord 30720 = 0x307800 := by decide

theorem test_channel_written : let t := after .channelWritten (after .load State.reset)
    tget t.rfe.cv 0 = 30720 ∧ t.rfe.slot.map Slot.chan = some 1 := by decide

theorem test_gap_expiry :
    ((after (.gapExpiry 0) (withVoice sounding 0 (fun r => { r with
      state := .pending, gapRunning := true, aWritten := true, bWritten := true }) sounding.val.free [0] [])).voice 0).state
      = .on := by decide

theorem test_hold_expiry :
    ((after (.holdExpiry 0) (withVoice sounding 0 (fun r => { r with holdRunning := true, offDeferred := true })
      sounding.val.free [0] [])).voice 0).state = .free := by decide

/-- P3 of 2048 steps 256 units (R50). -/
theorem test_glide_expiry :
    ((after .glideExpiry (withVoice sounding 0 (fun r => { r with key := some 72, glideActive := true })
      sounding.val.free [0] [])).voice 0).c = 15616 := by decide

theorem test_settle_expiry :
    ((after (.settleExpiry 3) (small.putChan 3 { small.chan 3 with state := .settling, counter := 7 })).chan 3).counter = 0 := by
  decide

/-- One count above T moves the code up by the step and halves it (R80). -/
theorem test_measurement_completion : ((after (.measurementCompletion 0 244625) (counting 512 0)).chan 0).code = 12800 ∧
    ((after (.measurementCompletion 0 244625) (counting 512 0)).chan 0).step = 256 := by decide

theorem test_no_signal : (tget (after (.noSignal 0) { counting 64 0 with tun :=
    { (counting 64 0).tun with trust := Vector.replicate 24 0x1FF } }).tun.trust 0) = 0x1FE := by decide

theorem test_knob_scan_expiry : (after .knobScanExpiry small).psc.pass = some ⟨false, 0⟩ := by decide

/-- A DIRECT knob writes its snapped value: 4089 lies in the end zone of 6 (R114, R117). -/
theorem test_knob_sample :
    (tget (after (.knobSample 4089) ({ small with psc := { small.psc with pass := some ⟨false, 47⟩ } }.putKnob 47
      ⟨0, .direct, .absolute 39, false, .below⟩)).prb.params 39).val = 4095 := by decide

/-- The switch lines with nothing pressed. -/
def open8 : Vector Byte 8 := Vector.replicate 8 0xFF

/-- The fourth reading in a row closes switch 64, which is SUSTAIN_A (R125 to R127). -/
theorem test_switch_sample :
    (after (.switchSample ⟨open8, 0b10⟩) { small with psc :=
      { small.psc with switches := tset small.psc.switches 64 ⟨false, 3, .sustainA⟩ } }).nrt.pedal = ⟨true, false⟩ := by
  decide

/-- Knob 3's pending report goes into the freed cell, oscillator 9's before it (R187, R189). -/
theorem test_room_event :
    let s := { small with
      rpu := { small.rpu with knobs := tset small.rpu.knobs 3 true, oscs := tset small.rpu.oscs 9 true }
      mem := [(512, 0x96), (520, 0x96)] }
    (after (.roomEvent 2 none) s).peeks 512 3 = [0x96, 0x03, 9] ∧ tget (after (.roomEvent 2 none) s).rpu.knobs 3 = true := by
  decide

theorem test_tin_rising_edge :
    ((after (.tinRisingEdge 0 500) ((counting 64 9).putChan 0 { (counting 64 9).chan 0 with periods := none })).chan 0).counter = 0 := by
  decide

/-! ### Witnesses: the hypotheses of each statement met together -/

theorem small_memory : small.memoryOk := by unfold State.memoryOk; decide

theorem small_lists : small.listsOk := by unfold State.listsOk; decide

theorem sounding_lists : sounding.listsOk := by unfold State.listsOk; decide

theorem small_timers : small.timersOk := by unfold State.timersOk Voice.timersOk; decide

theorem sounding_timers : sounding.timersOk := by unfold State.timersOk Voice.timersOk; decide

theorem small_ranges : small.rangesOk := by
  refine ⟨by unfold Setup.ok; decide, fun p => ?_, fun p => ?_⟩ <;> cases p
  · exact (by decide : 2 ≤ 2 ∧ 2 ≤ 12 ∧ 2 ≤ 12 ∧ (-24 : Int) ≤ 0 ∧ (0 : Int) ≤ 24)
  · exact (by decide : 2 ≤ 2 ∧ 2 ≤ 12 ∧ 2 ≤ 12 ∧ (-24 : Int) ≤ 0 ∧ (0 : Int) ≤ 24)
  · exact (by decide : (-8192 : Int) ≤ 0 ∧ (0 : Int) ≤ 8191)
  · exact (by decide : (-8192 : Int) ≤ 0 ∧ (0 : Int) ≤ 8191)

theorem small_request : small.requestAt 1 256 := ⟨_, rfl, rfl, by decide⟩

theorem small_note : small.noteAt 0 128 := ⟨_, rfl, rfl, by decide⟩

theorem ranges_of (s : State) (hm : s.mpa.setup = small.mpa.setup) (hp : s.prb.voicing = small.prb.voicing)
    (hn : s.nrt.bend = small.nrt.bend) : s.rangesOk := by
  refine ⟨hm ▸ small_ranges.1, fun p => ?_, fun p => hn ▸ small_ranges.2.2 p⟩
  rw [State.voicing, hp]
  exact small_ranges.2.1 p

/-- The last cell of common memory as a NOTE and as a REQUEST area's examine cell. -/
def atTop : State :=
  { small with mpa := { small.mpa with areas :=
    #v[some { ring .note 32 40 with pos := 3 }, some { ring .request 2032 2048 with pos := 1 }, none, none, none, none,
      none, none] } }

theorem top_request : atTop.requestAt 1 0x1FE0 ∧ atTop.noteAt 0 152 ∧ atTop.memoryOk :=
  ⟨⟨_, rfl, rfl, by decide⟩, ⟨_, rfl, rfl, by decide⟩, small_memory⟩

/-- A tune job in progress: oscillator 0, anchor 8, foreground. -/
def tuning : State := after (.tune 1 1 0x100 0 0) small

theorem witness_StepRunsTheFrontCommand : small.pending = [] := rfl

theorem witness_DeviceResetClearsThePart : small.pst.step = none ∧ (State.reset.pst.step).isSome = true ∧
    (∃ w, Instr.hostMemoryWrite (.byte 5 1) = .hostMemoryWrite w) ∧
    ∃ high x, Instr.enableWrite true 1 = .summaryEcho high x ∨ Instr.enableWrite true 1 = .enableWrite high x :=
  ⟨rfl, rfl, ⟨_, rfl⟩, _, _, .inr rfl⟩

theorem witness_invariants :
    small.memoryOk ∧ small.listsOk ∧ small.timersOk ∧ small.rangesOk ∧
      ∃ t, step (small.withPending [.keyOn 0 1 60 100 0]) = .next t :=
  ⟨small_memory, small_lists, small_timers, small_ranges, _, rfl⟩

/-- The jump queue at its full depth, a held-key list at its full length, a store queue of four beside a tune job. -/
def crowded : State :=
  { small with
    rfe := { small.rfe with jump := (List.range 32).map (Fin.ofNat 128) }
    nrt := { small.nrt with held := ⟨(List.range 16).map fun k => ⟨Fin.ofNat 128 k, 1⟩, []⟩ }
    rqu := { queue := [⟨.slotInfo 0, 1, 0⟩, ⟨.slotInfo 1, 1, 1⟩, ⟨.slotInfo 2, 1, 2⟩, ⟨.slotInfo 3, 1, 3⟩] }
    tun := { small.tun with job := tuning.tun.job } }

theorem witness_QueuesStayBounded :
    crowded.jumpOk ∧ crowded.keysOk ∧ crowded.flightOk ∧ ∃ t, step crowded = .next t := by
  refine ⟨by unfold State.jumpOk; decide, by unfold State.keysOk heldOk; decide, by unfold State.flightOk; decide, _, rfl⟩

theorem witness_TablesStayRising : small.tablesOk ∧ ∃ t, step small = .next t := by
  refine ⟨fun o j k h => ?_, _, rfl⟩
  show tget (tget (Vector.replicate 24 nominalTable) o) j < tget (tget (Vector.replicate 24 nominalTable) o) k
  simp only [tget_replicate]
  revert j k
  decide

theorem witness_RegistersAndInterruptLine : small.mpa.device ≠ .held ∧
    ({ small with mpa := { small.mpa with enable := 0x100 } } : State).mpa.enable.getLsbD 8 = true := by decide

theorem witness_RegistersOfTheWindow : small.mpa.device ≠ .setup ∧ State.reset.mpa.device ≠ .run ∧
    (0x2000 ≤ (0x2000#14).toNat ∧ (0x2000#14).toNat < 0x3FF0) ∧ (0x3FEF#14).toNat < 0x3FF0 ∧
    0x3FF4 < (0x3FF5#14).toNat ∧ 0x3FF4 < (0x3FFF#14).toNat := by decide

/-- A register pair, a byte of the last register, and an odd one; STARTING and RUN; the last byte of common memory. -/
theorem witness_RegistersOfTheWindow_cycles : (0x3FF0#14).toNat % 2 = 0 ∧ (0x3FF4#14).toNat % 2 = 0 ∧
    (0x3FF3#14).toNat % 2 = 1 ∧ 0x2000 ≤ (0x3FF0#14).toNat ∧ State.reset.mpa.device = .starting ∧
    small.mpa.device = .run ∧ (0x1FFF#14).toNat < 0x2000 ∧ small.mpa.device ≠ .held := by decide

/-- The first and last pair of common memory, which hold no mark of a position. -/
theorem witness_HostWriteCycles_plain : small.memoryOk ∧ small.mpa.device ≠ .held ∧
    (∀ off ∈ [0x0000#14, 0x1FFE#14, 0x1FFF#14], off.toNat < 0x2000 ∧ ∀ n a, small.active n = some a →
      a.cellAddr a.pos = off.toNat →
      (a.kind = .note ∨ a.kind = .request → (0#8) ≠ markPosted) ∧ (a.kind = .report → (0#8) ≠ markEmpty)) ∧
    (0x1FFE#14).toNat % 2 = 0 ∧ (0x1FFF#14).toNat % 2 = 1 := by
  have hlt : ∀ off ∈ [0x0000#14, 0x1FFE#14, 0x1FFF#14], off.toNat < 0x2000 := by
    intro off h
    simp only [List.mem_cons, List.not_mem_nil, or_false] at h
    rcases h with rfl | rfl | rfl <;> exact Nat.le_of_ble_eq_true rfl
  refine ⟨small_memory, by decide, fun off hoff => ⟨hlt off hoff, fun n a h hat => ?_⟩, by decide, by decide⟩
  have hat' : ∀ n : AreaId, ((small.active n).elim true fun a =>
      Nat.blt 0 (a.cellAddr a.pos) && Nat.blt (a.cellAddr a.pos) 8190) = true := by decide
  have hend : ∀ off ∈ [0x0000#14, 0x1FFE#14, 0x1FFF#14], off.toNat = 0 ∨ 8190 ≤ off.toNat := by
    intro off h
    simp only [List.mem_cons, List.not_mem_nil, or_false] at h
    rcases h with rfl | rfl | rfl
    · exact .inl rfl
    · exact .inr (Nat.le_of_ble_eq_true rfl)
    · exact .inr (Nat.le_of_ble_eq_true rfl)
  have hall := hat' n
  rw [h] at hall
  simp only [Option.elim_some, Bool.and_eq_true, Nat.blt_eq] at hall
  have := hend off hoff
  omega

theorem witness_HostWriteCycles_marks :
    (∃ a, small.active 1 = some a ∧ (256#14).toNat < 0x2000 ∧ a.cellAddr a.pos = (256#14).toNat ∧
      (a.kind = .note ∨ a.kind = .request)) ∧
    (∃ a, small.active 2 = some a ∧ a.cellAddr a.pos = (512#14).toNat ∧ a.kind = .report) ∧
    ∀ n ∈ [1, 2], ∀ m, ∀ b ∈ (small.active m).toList, ∀ a ∈ (small.active n).toList, m ≠ n →
      b.cellAddr b.pos ≠ a.cellAddr a.pos :=
  ⟨⟨_, rfl, by decide, rfl, .inr rfl⟩, ⟨_, rfl, rfl, rfl⟩, by decide⟩

/-- The part in SETUP with some bytes of common memory. -/
def setup (mem : List Host.Cell) : State :=
  { State.reset with mpa := { State.reset.mpa with device := .setup }, mem := mem }

theorem witness_FailedRunEntry : (setup [(0x78, 5)]).mpa.device = .setup ∧
    (setup [(0x78, 5)]).validate [] allAreas = some (7, .kindLimit) := by decide

/-- Whether entry `n` of a directory is the first to fail, at check `k`. -/
def failsFirst (s : State) (n : AreaId) (k : DirCheck) : Prop :=
  s.mpa.device = .setup ∧ (∀ (m : AreaId) (k' : DirCheck), m < n → (s.readEntry m).kind ≠ 0 → ¬ s.failsCheck m k') ∧
    (s.readEntry n).kind ≠ 0 ∧ s.failsCheck n k ∧ ∀ k' : DirCheck, k'.rank < k.rank → ¬ s.failsCheck n k'

/-- One directory for each check, each one step beyond what passes. -/
theorem witness_FailedRunEntry_checks :
    failsFirst (setup [(0x78, 5)]) 7 .kind ∧
    failsFirst (setup [(0x40, 1), (0x42, 31), (0x44, 40)]) 0 .bounds ∧
    failsFirst (setup [(0x40, 1), (0x42, 32), (0x44, 35)]) 0 .tooSmall ∧
    failsFirst (setup [(0x40, 4), (0x42, 32), (0x44, 119)]) 0 .imageSize ∧
    failsFirst (setup [(0x40, 1), (0x42, 32), (0x44, 36), (0x48, 1), (0x4A, 35), (0x4C, 39)]) 1 .overlap ∧
    failsFirst (setup [(0x40, 1), (0x42, 32), (0x44, 36), (0x48, 1), (0x4A, 36), (0x4C, 40), (0x50, 1), (0x52, 40),
      (0x54, 44)]) 2 .kindCount ∧
    failsFirst (setup [(0x40, 3), (0x41, 1), (0x42, 32), (0x44, 36), (0x48, 3), (0x49, 1), (0x4A, 36), (0x4C, 40)]) 1
      .joins := by
  refine ⟨?_, ?_, ?_, ?_, ?_, ?_, ?_⟩ <;>
    refine ⟨rfl, fun m k' => ?_, by decide, by simp only [State.failsCheck]; decide, fun k' => ?_⟩ <;>
    first
      | (cases k' <;> simp only [State.failsCheck, DirCheck.rank] <;> revert m <;> decide)
      | (cases k' <;> simp only [State.failsCheck, DirCheck.rank] <;> decide)

/-- An IMAGE area of exactly 352 bytes that ends at the end of common memory. -/
theorem witness_SuccessfulRunEntry :
    let s := setup [(0x40, 4), (0x42, 0xA8), (0x43, 7), (0x45, 8)]
    s.memoryOk ∧ s.mpa.device = .setup ∧ s.directoryOk := by
  refine ⟨by unfold State.memoryOk; decide, rfl, by unfold DirEntry.fitsAlone; decide, by decide, by decide, by decide,
    by decide, by decide, by decide⟩

theorem witness_RestartReturnsToSetup : small.mpa.device = .run := rfl

theorem witness_ArrivalOfARequestCell :
    let s := { atTop with mem := [(0x1FE1, 0x01), (0x1FE2, 3), (0x1FE6, 39), (0x1FE8, 0x10)] }
    s.memoryOk ∧ requestCell (.setParam 1 39 0x1000) = some (1, .setParam, [39, 0x00, 0x10]) ∧ s.requestAt 1 0x1FE0 ∧
      readsAs s 0x1FE1 [ReqKind.setParam.code, ReqKind.setParam.argBytes] ∧ readsAs s 0x1FE6 [39, 0x00, 0x10] := by
  refine ⟨by unfold State.memoryOk; decide, by decide, ⟨_, rfl, rfl, by decide⟩, ?_, ?_⟩ <;> unfold readsAs <;> decide

/-- A cell whose kind byte is another one, and the kind that the arrival's pair carries. -/
theorem witness_Arrival_pair :
    (let s := { atTop with mem := [(0x1FE1, 0xEE), (0x1FE2, 3), (0x1FE6, 39), (0x1FE8, 0x10)] }
    (some ReqKind.setParam.code).getD (s.peek (0x1FE0 + 1)) = ReqKind.setParam.code ∧
      s.peek (0x1FE0 + 1) ≠ ReqKind.setParam.code ∧ s.peek (0x1FE0 + 2) = ReqKind.setParam.argBytes) ∧
    let s := { small with mem := [(129, 0xEE), (130, 1)] }
    ∀ kind ∈ [1#8, 2#8, 3#8, 4#8, 5#8], (some kind).getD (s.peek (128 + 1)) = kind := by decide

/-- Each of the five note kinds, in a cell of part 1. -/
theorem witness_ArrivalOfANoteCell :
    (∀ kind ∈ [1#8, 2#8, 3#8, 4#8, 5#8], let s := { small with mem := [(129, kind), (130, 1), (131, 60), (132, 100), (134, 0x20)] }
      Memory.wf Config.memFill Config.memSize s.mem = true ∧ s.peek 129 = kind ∧ s.peek 130 = 1 ∧ s.peek 131 = 60 ∧
        s.peek 132 = 100 ∧ s.peekLe 133 2 = (0x2000#16).toNat ∧ s.peek 135 = 0) ∧
    small.noteAt 0 128 := ⟨by decide, small_note⟩

theorem witness_LookTakesOrWaits :
    (∃ a, small.active 1 = some a ∧ (a.kind = .note ∨ a.kind = .request) ∧ a.lookDue = true ∧
      a.cellAddr a.pos < Config.memSize ∧ small.peek (a.cellAddr a.pos) ≠ markPosted) ∧
    ∃ a, (small.poke 256 0xA5).active 1 = some a ∧ a.lookDue = true ∧
      (small.poke 256 0xA5).peek (a.cellAddr a.pos) = markPosted :=
  ⟨⟨_, rfl, .inr rfl, rfl, by decide, by decide⟩, ⟨_, rfl, rfl, by decide⟩⟩

/-- A cell of kind 0, and a SET_PARAM cell of length 2. -/
theorem witness_RefusedRequests_cell : small.memoryOk ∧ small.requestAt 1 256 ∧
    (∀ k ∈ allKinds, small.peek 257 ≠ k.code) ∧
    ({ small with mem := [(257, 1), (258, 2)] } : State).peek 257 = ReqKind.setParam.code ∧
    ({ small with mem := [(257, 1), (258, 2)] } : State).peek 258 ≠ ReqKind.setParam.argBytes :=
  ⟨small_memory, small_request, by decide, by decide, by decide⟩

/-- The least argument out of range of every clause. -/
theorem witness_RefusedRequests_argument : 40 ≤ (40#8).toNat ∧ ((3#8) ≠ 1 ∧ (3#8) ≠ 2) ∧ 48 ≤ (48#8).toNat ∧
    (40 ≤ (63#8).toNat ∧ (63#8).toNat < 64) ∧ (80 ≤ (254#8).toNat ∧ (254#8).toNat < 255) ∧ 66 ≤ (66#8).toNat ∧
    (0x007F#16).toNat < 0x0080 ∧ 0x1FC8 < (0x1FC9#16).toNat ∧ (0x1000000#32).toNat % 2 ^ 24 = 0 ∧
    (0x200#16).toNat % 2 ^ 9 = 0 ∧ 200 ≤ (200#8).toNat ∧ 3 < (4#8).toNat := by decide

theorem witness_EmissionIntoAnArea_idle : small.memoryOk ∧ small.choose 2 = none ∧
    ∃ a, small.areaOf 2 .report = some a ∧ 2 ≤ a.count ∧ a.pos < a.count ∧ a.cellAddr a.count ≤ Config.memSize :=
  ⟨small_memory, by decide, _, rfl, by decide, by decide, by decide⟩

theorem witness_EmissionIntoAnArea_fault :
    let s := { small with rpu := { small.rpu with fault := some ⟨1, 0, 0x103⟩ }, mem := [(520, 0x96)] }
    s.rpu.faultArea = some 2 ∧ s.rpu.fault = some ⟨1, 0, 0x103⟩ ∧
      ∃ a, s.areaOf 2 .report = some a ∧ s.peek (a.cellAddr a.nextPos) ≠ markEmpty :=
  ⟨rfl, rfl, _, rfl, by decide⟩

/-- The last knob, switch and oscillator and a fault, each the chosen report. -/
theorem witness_EmissionIntoAnArea_chosen :
    let s (r : Rpu) := { small with rpu := r, mem := [(520, 0x96)] }
    let knob := { small.rpu with knobs := tset small.rpu.knobs 47 true }
    let switch := { small.rpu with switches := tset small.rpu.switches 65 true }
    let osc := { small.rpu with oscs := tset small.rpu.oscs 23 true, knobs := tset small.rpu.knobs 0 true }
    let fault := { osc with fault := some ⟨1, 0, 0x103⟩ }
    (s knob).choose 2 = some (.knob 47) ∧ (s switch).choose 2 = some (.switch 65) ∧ (s osc).choose 2 = some (.osc 23) ∧
      (s fault).choose 2 = some (.fault ⟨1, 0, 0x103⟩) ∧
      Memory.wf Config.memFill Config.memSize (s knob).mem = true ∧
      ∃ a, (s knob).areaOf 2 .report = some a ∧ 2 ≤ a.count ∧ a.pos < a.count ∧ a.cellAddr a.count ≤ Config.memSize ∧
        (s knob).peek (a.cellAddr a.nextPos) ≠ markEmpty :=
  ⟨by decide, by decide, by decide, by decide, by decide, _, rfl, by decide, by decide, by decide, by decide⟩

/-- The least bad part and the least bad key; no area joined, and a joined one without room. -/
theorem witness_NoteFaultHasNoEffect : (∃ a, small.areaOf 0 .note = some a) ∧ 2 < (3#8).toNat ∧ 127 < (128#8).toNat ∧
    State.reset.rpu.faultArea = none ∧
    (let s := small.poke 512 0x96
    s.rpu.faultArea = some 2 ∧ ∃ a b, s.areaOf 0 .note = some a ∧ s.areaOf 2 .report = some b ∧
      s.peek (b.cellAddr b.pos) ≠ markEmpty ∧ a.cellAddr a.pos + 8 ≤ b.cellAddr b.pos) :=
  ⟨⟨_, rfl⟩, by decide, by decide, rfl, rfl, _, _, rfl, rfl, by decide, by decide⟩

/-- The bad kinds, 0 and 6 and above, in the kind byte and in the arrival's pair; a bad key beside a good part. -/
theorem witness_NoteFaultHasNoEffect_kind : small.memoryOk ∧ small.noteAt 0 128 ∧ (∃ a, small.areaOf 0 .note = some a) ∧
    (none : Option Byte).getD (small.peek (128 + 1)) = 0 ∧ 5 < ((some 6#8).getD (small.peek (128 + 1))).toNat ∧
    ¬ 5 < (5#8).toNat ∧ ((2#8).toNat ≤ 2 ∧ 127 < (128#8).toNat) ∧ 2 < (255#8).toNat :=
  ⟨small_memory, small_note, ⟨_, rfl⟩, by decide⟩

/-- A key in the list, a key not in it, and a full list. -/
theorem witness_KeysOfTheHeldList : crowded.areaOf 0 .note ≠ none ∧ (127#8).toNat = (127 : Key).val ∧ 0 < (1#8).toNat ∧
    (∃ x ∈ crowded.held .A, x.key = 15) ∧ (∀ x ∈ crowded.held .A, x.key ≠ 127) ∧ 16 ≤ (crowded.held .A).length ∧
    (∀ x ∈ crowded.held .B, x.key ≠ 127) ∧ (crowded.held .B).length < 16 := by decide

/-- Code 0 reaches part B from the split key down, part A at it, and both parts in LAYER. -/
theorem witness_KeysOfTheHeldList_routing :
    let split := { small with nrt := { small.nrt with mode := .split } }
    let layer := { small with nrt := { small.nrt with mode := .layer } }
    (0#8).toNat ≤ 2 ∧ (2#8).toNat ≤ 2 ∧ split.nrt.split = 60 ∧ split.keyReaches 0 59 .B ∧ ¬ split.keyReaches 0 59 .A ∧
      split.keyReaches 0 60 .A ∧ layer.keyReaches 0 60 .A ∧ layer.keyReaches 0 60 .B ∧ small.keyReaches 0 59 .A ∧
      small.keyReaches 2 59 .B := by
  refine ⟨by decide, by decide, rfl, .inr ⟨rfl, rfl⟩, fun h => ?_, .inr ⟨rfl, rfl⟩, .inr ⟨rfl, trivial⟩,
    .inr ⟨rfl, trivial⟩, .inr ⟨rfl, rfl⟩, .inl rfl⟩
  rcases h with h | ⟨_, h⟩
  · exact absurd h (by decide)
  · exact absurd (h : Part.A = if (59 : Key) < 60 then .B else .A) (by decide)

/-- A state with part A in another mode. -/
def inMode (s : State) (x : AllocMode) : State := s.putVoicing .A { s.voicing .A with mode := x }

/-- MONO starts one voice, UNISON two, and as many as there are where the count asks for more. -/
theorem witness_KeysOfTheHeldList_start :
    let most := small.putVoicing .A { small.voicing .A with mode := .unison, count := 12 }
    (inMode small .mono).listsOk ∧ (inMode small .mono).areaOf 0 .note ≠ none ∧ ((inMode small .mono).voicing .A).mode ≠ .poly ∧
    (inMode small .mono).busyOf .A = [] ∧
    ((allVoices.filter fun v => ((inMode small .mono).voice v).part = .A && ((inMode small .mono).voice v).state = .free).take
      (if ((inMode small .mono).voicing .A).mode = .mono then 1 else ((inMode small .mono).voicing .A).count)) = [0] ∧
    ((allVoices.filter fun v => (most.voice v).part = .A && (most.voice v).state = .free).take
      (if (most.voicing .A).mode = .mono then 1 else (most.voicing .A).count)) = allVoices :=
  ⟨by unfold State.listsOk; decide, by decide, by decide, by decide, by decide, by decide⟩

/-- Part A sounds key 60 in MONO and holds key 60, or keys 60 and 62. -/
def monoSounding (held : List HeldKey) : State :=
  { inMode sounding .mono with nrt := { sounding.nrt with held := ⟨held, []⟩ } }

theorem witness_KeysOfTheHeldList_change : (monoSounding [⟨60, 100⟩]).listsOk ∧
    (monoSounding [⟨60, 100⟩]).areaOf 0 .note ≠ none ∧ ((monoSounding [⟨60, 100⟩]).voicing .A).mode ≠ .poly ∧
    (monoSounding [⟨60, 100⟩]).busyOf .A = 0 :: [] ∧ ((monoSounding [⟨60, 100⟩]).voice 0).key = some 60 ∧
    (∃ x ∈ (monoSounding [⟨60, 100⟩, ⟨62, 90⟩]).held .A, x.key ≠ 60) ∧
    (∀ x ∈ (monoSounding [⟨60, 100⟩]).held .A, x.key = 60) ∧ (monoSounding [⟨60, 100⟩]).tun.job = none ∧
    (monoSounding [⟨60, 100⟩]).gatePin 0 = true :=
  ⟨by unfold State.listsOk; decide, by decide, by decide, by decide, by decide, by decide, by decide, rfl, by decide⟩

theorem witness_PolyKeyOnAllocates_free : small.listsOk ∧ small.timersOk ∧ small.areaOf 0 .note ≠ none ∧
    (small.voicing .A).mode = .poly ∧ (∀ w ∈ small.busyOf .A, (small.voice w).key ≠ some 60) ∧
    small.freeOf .A = 0 :: [1, 2, 3, 4, 5, 6, 7, 8, 9, 10, 11] :=
  ⟨small_lists, small_timers, by decide, by decide, by decide, by decide⟩

/-- Every voice of part A is busy: eleven belong to part B. -/
def oneVoice : State :=
  { sounding with val := { sounding.val with voices := allVoices.foldl (fun t v =>
    if v = 0 then t else tmod t v fun r => { r with part := .B }) sounding.val.voices } }

theorem witness_PolyKeyOnAllocates_steal : oneVoice.listsOk ∧ oneVoice.areaOf 0 .note ≠ none ∧
    (oneVoice.voicing .A).mode = .poly ∧ (oneVoice.voicing .A).steal = .oldest ∧
    (∀ w ∈ oneVoice.busyOf .A, (oneVoice.voice w).key ≠ some 61) ∧ oneVoice.freeOf .A = [] ∧
    oneVoice.background = false ∧ oneVoice.busyOf .A = [0] ∧ oneVoice.gatePin 0 = true :=
  ⟨by unfold State.listsOk; decide, by decide, by decide, by decide, by decide, by decide, rfl, by decide, by decide⟩

/-- A report area with room and one without. -/
theorem witness_reports : small.reportOpen 2 512 ∧ (small.poke 512 0x96).reportFull 2 ∧ small.rpu.voiceArea = some 2 ∧
    (∀ b, inCell 512 8 b → ¬ inCell 128 8 b) ∧
    ∀ b, (small.poke 512 0x96).areaOf 2 .report = some b → ¬ inCell 128 8 (b.cellAddr b.pos) := by
  have image : ∀ b, small.inImage 0 352 b → 1024 ≤ b := fun b h => h.1
  refine ⟨⟨⟨_, rfl, by decide⟩, by decide, by decide, fun b hb hi => ?_, by decide⟩, ⟨_, rfl, by decide, fun hi => ?_⟩,
    rfl, fun b hb hc => ?_, fun b hb => ?_⟩
  · have hb' : 512 ≤ b ∧ b < 512 + 8 := hb
    have := image b hi
    omega
  · exact absurd (hi : _).1 (by decide)
  · have hb' : 512 ≤ b ∧ b < 512 + 8 := hb
    have hc' : 128 ≤ b ∧ b < 128 + 8 := hc
    omega
  · obtain rfl : { ring .report 128 132 with joins := 15 } = b := Option.some.inj hb
    unfold inCell
    decide

/-- Stealing off; and no busy voice to steal. -/
theorem witness_PolyKeyOnAllocates_none :
    let off := oneVoice.putVoicing .A { oneVoice.voicing .A with steal := .none }
    let bare : State :=
      { small with val := { small.val with voices := Vector.replicate 12 { Voice.reset with part := .B } } }
    (off.voicing .A).steal = .none ∧ off.freeOf .A = [] ∧ off.background = false ∧ (off.voicing .A).mode = .poly ∧
      (∀ w ∈ off.busyOf .A, (off.voice w).key ≠ some 61) ∧ bare.busyOf .A = [] ∧ bare.freeOf .A = [] := by decide

theorem witness_PolyKeyOnAllocates_retrigger : sounding.listsOk ∧ (sounding.voicing .A).mode = .poly ∧
    (0 : VoiceId) ∈ sounding.busyOf .A ∧ (sounding.voice 0).key = some 60 ∧
    (∀ w ∈ sounding.busyOf .A, (sounding.voice w).key = some 60 → w = 0) ∧ sounding.gatePin 0 = true :=
  ⟨sounding_lists, by decide, by decide, by decide, by decide, by decide⟩

/-- Part A owns voice 0 alone, which a background job has TUNING; oscillator 1 waits. -/
def lent : State :=
  after (.tune 1 3 0x100 0 1)
    { small with val := { small.val with voices := allVoices.foldl (fun t v =>
      if v = 0 then t else tmod t v fun r => { r with part := .B }) small.val.voices } }

theorem witness_PolyKeyOnAllocates_yield : lent.listsOk ∧ lent.areaOf 0 .note ≠ none ∧ (lent.voicing .A).mode = .poly ∧
    (∀ w ∈ lent.busyOf .A, (lent.voice w).key ≠ some 60) ∧ lent.freeOf .A = [] ∧ lent.yields .A 0 ∧
    (lent.chan (voiceCard 0)).osc = some 0 ∧ (lent.chan (voiceCard 0)).voice = some 0 ∧ oscVoice 0 = 0 ∧
    ∃ j, lent.tun.job = some j ∧ ∀ x ∈ tget j.lists (voiceCard 0), (lent.voice (oscVoice x.osc)).state ≠ .free :=
  ⟨by unfold State.listsOk; decide, by decide, by decide, by decide, by decide, by unfold State.yields; decide, by decide,
    by decide, by decide, _, rfl, by decide⟩

/-- A release without restore; one with restore that finds key 62 without a voice; and a key that no voice plays. -/
theorem witness_PolyKeyOnAllocates_off :
    let s : State :=
      { sounding with
        prb := { sounding.prb with voicing := sounding.prb.voicing.put .A { sounding.voicing .A with restore := true } }
        nrt := { sounding.nrt with held := ⟨[⟨60, 100⟩, ⟨62, 90⟩], []⟩ } }
    (sounding.voicing .A).restore = false ∧ sounding.tun.job = none ∧
      (∀ w ∈ sounding.busyOf .A, (sounding.voice w).key ≠ some 61) ∧ s.listsOk ∧ (s.voicing .A).restore = true ∧
      (s.voice 0).state = .on ∧ (s.voice 0).holdRunning = false ∧ s.nrt.pedal.get .A = false ∧
      s.newestWithout .A 0 ((s.held .A).filter fun x => x.key != 60) ⟨62, 90⟩ := by
  refine ⟨by decide, rfl, by decide, by unfold State.listsOk; decide, by decide, by decide, by decide, by decide,
    [], [], by decide, by decide, by decide⟩

theorem witness_BendSetsTheBend : small.memoryOk ∧ small.noteAt 0 128 ∧ (2#8).toNat ≤ 2 :=
  ⟨small_memory, small_note, by decide⟩

/-- Code 0 reaches part A alone in SINGLE and both parts in LAYER. -/
theorem witness_PedalHoldsAndFrees : sounding.listsOk ∧ sounding.areaOf 0 .note ≠ none ∧ (0#8).toNat ≤ 2 ∧
    sounding.partReaches 0 .A ∧ ¬ sounding.partReaches 0 .B ∧
    ({ sounding with nrt := { sounding.nrt with mode := .layer } } : State).partReaches 0 .B := by
  refine ⟨sounding_lists, by decide, by decide, ?_, ?_, ?_⟩ <;> unfold State.partReaches <;> decide

/-- Voice 1 is SUSTAINED, voices 0 and 2 are ON; part A plain, also as a MONO part without a key. -/
theorem witness_PedalHoldsAndFrees_up :
    let s := withVoice (withVoice sounding 1 (fun r => { r with state := .sustained, key := some 64, onset := 2 })
        sounding.val.free [0] []) 2 (fun r => { r with state := .on, key := some 67, onset := 3 })
      [3, 4, 5, 6, 7, 8, 9, 10, 11] [0, 1, 2] []
    s.listsOk ∧ s.areaOf 0 .note ≠ none ∧ s.tun.job = none ∧ (s.voicing .A).mode = .poly ∧
      (s.voicing .A).restore = false ∧ (s.voice 1).state = .sustained ∧ (s.voice 2).state.busy = true ∧
      (s.voice 2).state ≠ .sustained ∧ ((inMode s .mono).voicing .A).mode ≠ .poly ∧ (inMode s .mono).held .A = [] ∧
      ((1#8).toNat ≤ 2 ∧ s.partReaches 1 .A) ∧ ∀ q : Part, s.partReaches 1 q → q = .A := by
  refine ⟨by unfold State.listsOk; decide, by decide, rfl, by decide, by decide, by decide, by decide, by decide,
    by decide, by decide, ⟨by decide, ?_⟩, fun q => ?_⟩
  · unfold State.partReaches
    decide
  · cases q <;> unfold State.partReaches <;> decide

theorem witness_AllOffSilencesThePart : sounding.listsOk ∧ sounding.areaOf 0 .note ≠ none ∧ sounding.tun.job = none ∧
    (sounding.voice 1).part ≠ .B := ⟨sounding_lists, by decide, rfl, by decide⟩

/-- Voice 0 sounds and oscillator 0 waits for it in a background job. -/
theorem witness_AllOffSilencesThePart_look :
    let s := after (.tune 1 1 0x100 0 1) sounding
    s.listsOk ∧ s.areaOf 0 .note ≠ none ∧ s.background = true ∧
      (∀ d : CardId, ∀ x ∈ s.pendingList d, oscCard x.osc = d) ∧ (s.chan 0).state = .idle ∧
      s.pendingList 0 = [] ++ ⟨0, [8]⟩ :: [] ∧
      (∃ v : VoiceId, voiceCard v = 0 ∧ (s.voice v).part = .A ∧ (s.voice v).state.busy = true) ∧ oscVoice 0 = 0 := by
  refine ⟨by unfold State.listsOk; decide, by decide, by decide, by decide, by decide, by decide, ⟨0, by decide⟩, by decide⟩

/-- The first and the last parameter; the image does not meet the cell. -/
theorem witness_SetParamWritesTheParameter : small.memoryOk ∧ small.requestAt 1 256 ∧
    (39#8).toNat = (39 : ParamId).val ∧ (0#8).toNat = (0 : ParamId).val ∧
    (∀ b, small.inImage 0 352 b → ¬ inCell 256 32 b) ∧ small.imageBase = some 1024 ∧ 1024 + 352 ≤ Config.memSize := by
  refine ⟨small_memory, small_request, by decide, by decide, fun b hb hc => ?_, by decide, by decide⟩
  have hb' : 1024 + 0 ≤ b ∧ b < 1024 + 0 + 352 := hb
  have hc' : 256 ≤ b ∧ b < 256 + 32 := hc
  omega

theorem witness_requests : small.memoryOk ∧ small.listsOk ∧ small.requestAt 1 256 :=
  ⟨small_memory, small_lists, small_request⟩

/-- SET_VOICING with another mode, and with the block in force. -/
theorem witness_SetVoicingConditionsTheBlock :
    (conditionVoicing block).mode ≠ (small.voicing .A).mode ∧
      conditionVoicing #v[0, 2, 0, 0, 2, 0, 0, 0] = small.voicing .A := by decide

/-- Mode and count kept: the same priority with another transpose, which moves voice 0; priority LOW with the priority key
sounding, another one, no busy voice, and no held key. -/
theorem witness_SetVoicingConditionsTheBlock_kept :
    let low := conditionVoicing #v[1, 2, 1, 0, 2, 0, 0, 0]
    let moved := conditionVoicing #v[0, 2, 0, 0, 2, 5, 0, 0]
    let s := monoSounding
    (low.mode = ((s []).voicing .A).mode ∧ low.count = ((s []).voicing .A).count ∧ low.mode ≠ .poly ∧
      low.priority = .low ∧ low.priority ≠ ((s []).voicing .A).priority ∧ low.transpose = ((s []).voicing .A).transpose) ∧
    ((s []).held .A = [] ∧ (s []).tun.job = none ∧ (s []).busyOf .A = 0 :: [] ∧ ((s []).voice 0).key = some 60) ∧
    isPriority .low ((s [⟨60, 100⟩, ⟨62, 90⟩]).held .A) ⟨60, 100⟩ ∧ isPriority .low ((s [⟨60, 100⟩, ⟨48, 90⟩]).held .A) ⟨48, 90⟩ ∧
    ((inMode small .mono).busyOf .A = [] ∧ (s [⟨60, 100⟩]).memoryOk ∧ (s [⟨60, 100⟩]).listsOk ∧
      (s [⟨60, 100⟩]).requestAt 1 256) ∧
    (allVoices.filter fun v => ((inMode small .mono).voice v).part = .A && ((inMode small .mono).voice v).state = .free).take 1
      ≠ [] ∧
    (moved.mode = (sounding.voicing .A).mode ∧ moved.count = (sounding.voicing .A).count ∧
      moved.priority = (sounding.voicing .A).priority ∧ moved.transpose ≠ (sounding.voicing .A).transpose ∧
      (sounding.voice 0).part = .A ∧ (sounding.voice 0).state.busy = true ∧ (sounding.voice 0).glideActive = false) := by
  refine ⟨by decide, by decide, by unfold isPriority; decide, by unfold isPriority; decide,
    ⟨by decide, by unfold State.memoryOk; decide, by unfold State.listsOk; decide, ⟨_, rfl, rfl, by decide⟩⟩, by decide,
    by decide⟩

/-- A CATCH knob with an edit-relative target. -/
theorem witness_SelectEditDetaches :
    let s := small.putKnob 0 ⟨0, .catchMode, .editRelative 15, false, .below⟩
    s.memoryOk ∧ s.requestAt 1 256 ∧ (s.knob 0).mode = .catchMode ∧ (s.knob 0).target = .editRelative 15 :=
  ⟨small_memory, small_request, by decide, by decide⟩

/-- The last knob and the bounds of the target codes; the last switch. -/
theorem witness_MapsAreReplaced : small.memoryOk ∧ small.requestAt 1 256 ∧ (47#8).toNat = (47 : KnobId).val ∧
    (39#8).toNat = (39 : ParamId).val ∧ (64#8).toNat = 64 + (0 : Fin 16).val ∧ (79#8).toNat = 64 + (15 : Fin 16).val ∧
    (255#8).toNat = 255 ∧ small.resolve (.editRelative 15) = some 15 ∧ (65#8).toNat = (65 : SwitchId).val :=
  ⟨small_memory, small_request, by decide, by decide, by decide, by decide, by decide, by decide, by decide⟩

/-- A range that ends at the cell, one that begins at its end, and the last range. -/
theorem witness_ranges : small.memoryOk ∧ small.requestAt 1 256 ∧
    (0x0080 ≤ (0x0080#16).toNat ∧ (0x0080#16).toNat + 56 ≤ 256) ∧ 256 + 32 ≤ (288#16).toNat ∧
    (0x1FC8#16).toNat ≤ 0x1FC8 :=
  ⟨small_memory, small_request, by decide, by decide, by decide⟩

theorem witness_PartImportLoadsThePart_export :
    let s := small.pokes 0x0080 (small.exportBytes .A)
    s.memoryOk ∧ s.requestAt 1 256 ∧ readsAs s 0x0080 (s.exportBytes .A) := by
  refine ⟨by unfold State.memoryOk; decide, ⟨_, rfl, rfl, by decide⟩, by unfold readsAs; decide⟩

/-- A CATCH knob on part A's parameter 15 and an edit-relative one; one on a parameter of part B is not among them. -/
theorem witness_PartImportLoadsThePart_knobs :
    let s := (small.putKnob 0 ⟨0, .catchMode, .absolute 15, false, .below⟩).putKnob 1 ⟨9, .catchMode, .editRelative 0, false, .below⟩
    (s.knob 0).mode = .catchMode ∧ s.resolve (s.knob 0).target = some 15 ∧ (15 : ParamId).val / 16 = 0 ∧
      s.resolve (s.knob 1).target = some 0 ∧ (16 : ParamId).val / 16 = 1 ∧ (32 : ParamId).val / 16 = 2 := by decide

theorem witness_TuneIsAdmittedOrBusy : (1#32).toNat % 2 ^ 24 ≠ 0 ∧ (0x100#16).toNat % 2 ^ 9 ≠ 0 ∧
    tuning.tun.job.isSome = true ∧ small.tun.job = none ∧
    (∃ e ∈ [(⟨.storeCal, 1, 0⟩ : StoreEntry)], e.req = .storeCal ∨ e.req = .revertCal) ∧
    ∀ e ∈ small.rqu.queue, e.req ≠ .storeCal ∧ e.req ≠ .revertCal := by decide

/-- Oscillator 0 is the lowest of card 0; in the background one whose voice is FREE comes before one whose is not. -/
theorem witness_TuneIsAdmittedOrBusy_take : small.listsOk ∧ (1#8) ≠ 0 ∧ (small.chan 0).state = .idle ∧ oscCard 0 = 0 ∧
    (3#32).getLsbD 0 = true ∧ (∀ o' : OscId, o' < 0 → oscCard o' = 0 → (3#32).getLsbD o'.val = true → False) ∧
    (0x100#16).getLsbD (8 : AnchorId).val = true ∧ (∀ k' : AnchorId, k' < 8 → (0x100#16).getLsbD k'.val = false) ∧
    (small.voice (oscVoice 0)).state = .free ∧ oscCard 2 = 0 ∧ (5#32).getLsbD 2 = true ∧
    (sounding.voice (oscVoice 0)).state ≠ .free ∧ (sounding.voice (oscVoice 2)).state = .free ∧
    ∀ o' : OscId, o' < 2 → oscCard o' = 0 → (5#32).getLsbD o'.val = true → (sounding.voice (oscVoice o')).state ≠ .free :=
  ⟨small_lists, by decide⟩

theorem witness_TuneAbortEndsTheJob : tuning.memoryOk ∧ tuning.listsOk ∧ tuning.requestAt 1 288 ∧
    tuning.tun.job.isSome = true :=
  ⟨by unfold State.memoryOk; decide, by unfold State.listsOk; decide, ⟨_, rfl, rfl, by decide⟩, by decide⟩

/-- The job's own cell ends where the abort's begins; a job without a failure and one with. -/
theorem witness_TuneAbortEndsTheJob_cell : ∃ j, tuning.tun.job = some j ∧ tuning.cellAt j.area j.cell = some 256 ∧
    256 + 32 ≤ Config.memSize ∧ 256 + 32 ≤ 288 ∧ j.firstFailure = none ∧
    ({ j with firstFailure := some ⟨23, 8, .order⟩ } : TuneJob).firstFailure = some ⟨23, 8, .order⟩ :=
  ⟨_, rfl, by decide, by decide, by decide, by decide, rfl⟩

/-- A slot of oscillator 0's pitch channel at its strobe, with the stamp that channel 0 expects, and with another. -/
theorem witness_EdgesAreCounted_written :
    let s (stamp : BitVec 16) :=
      { tuning with rfe := { tuning.rfe with slot := some ⟨pitchChan 0, 0, none, some stamp, 0, 8, true⟩ } }
    (s 1).rangesOk ∧ (∃ k, (s 1).rfe.slot = some k ∧ k.strobing = true ∧ k.stamp = some ((s 1).chan 0).expected ∧
      ∃ o, ((s 1).chan 0).osc = some o ∧ pitchChan o = k.chan) ∧ ((s 1).chan 0).state = .setting ∧
    ∃ k, (s 2).rfe.slot = some k ∧ k.strobing = true ∧ k.stamp ≠ some ((s 2).chan 0).expected :=
  ⟨ranges_of _ rfl rfl rfl, ⟨_, rfl, rfl, by decide, _, rfl, rfl⟩, by decide, _, rfl, rfl, by decide⟩

theorem witness_EdgesAreCounted :
    ((small.putChan 3 { small.chan 3 with state := .settling }).chan 3).state = .settling ∧
    (let m := ((counting 64 9).putChan 0 { (counting 64 9).chan 0 with periods := none }).chan 0
    m.state = .counting ∧ m.counter + 1048565 < 1048575 ∧ m.periods = none) ∧
    (let m := ((counting 64 9).putChan 0 { (counting 64 9).chan 0 with anchor := 8, periods := some 254 }).chan 0
    m.state = .counting ∧ m.counter + 0 < 1048575 ∧ m.periods = some 254 ∧ 254 + 1 < 2 ^ m.anchor.val) := by decide

/-- One clock either side of T. -/
theorem witness_SearchMovesTheCode : let m := (counting 1 0).chan 0
    m.state = .counting ∧ m.osc = some 0 ∧ m.periods = some 0 ∧ 2 ^ m.anchor.val ≤ 0 + 1 ∧ m.step ≠ 0 ∧
      0 < m.counter + 244623 ∧ m.counter + 244625 < 1048575 ∧
      m.counter + 244623 < (counting 1 0).mpa.setup.targetT ∧ (counting 1 0).mpa.setup.targetT < m.counter + 244625 := by
  decide

/-- A search count of T, a verify count at the tolerance, one beyond it, and a code outside its neighbours. -/
theorem witness_AcceptanceOrFailure : let m := (counting 0 0).chan 0
    m.state = .counting ∧ m.osc = some 0 ∧ m.periods = some 0 ∧ m.step = 0 ∧ (counting 512 0).mpa.setup.targetT = 244624 ∧
      ((counting 512 0).chan 0).step ≠ 0 ∧ ((244624 + 141 : Int) - 244624).natAbs ≤ (counting 0 0).mpa.setup.tolerance ∧
      ¬ ((244624 + 142 : Int) - 244624).natAbs ≤ (counting 0 0).mpa.setup.tolerance ∧
      m.code < tget (tget small.tun.anchors 0) 1 ∧ ¬ (18432 : Code) < tget (tget small.tun.anchors 0) 1 := by decide

theorem witness_AcceptanceOrFailure_next : let s := tuning.putChan 0 { (counting 0 0).chan 0 with rest := [8] }
    (s.chan 0).rest = 8 :: [] ∧ (s.chan 0).state = .counting ∧ ∃ j, s.tun.job = some j :=
  ⟨by decide, by decide, _, rfl⟩

theorem witness_NoSignalFinishesTheOscillator : ∃ j,
    (tuning.putChan 0 { tuning.chan 0 with state := .counting }).tun.job = some j ∧
      ((tuning.putChan 0 { tuning.chan 0 with state := .counting }).chan 0).state = .counting ∧
      ((tuning.putChan 0 { tuning.chan 0 with state := .counting }).chan 0).osc = some 0 :=
  ⟨_, rfl, by decide, by decide⟩

/-- Oscillator 0 counts at its last anchor in a job of some oscillators. -/
def ending (oscs : BitVec 32) : State :=
  let s := after (.tune 1 oscs 0x100 0 0) small
  s.putChan 0 { s.chan 0 with state := .counting, periods := some 255, step := 0 }

/-- The count ends without a signal, with the last edge of the verify, or in the search with a count of T; the job ends. -/
theorem witness_NoSignalFinishesTheOscillator_ends : (ending 1).memoryOk ∧ (ending 1).listsOk ∧
    (ending 1).rangesOk ∧ (ending 1).endsOsc 0 0 (.noSignal 0) ∧ (ending 1).endsOsc 0 0 (.measurementCompletion 0 1) ∧
    ((ending 1).putChan 0 { (ending 1).chan 0 with step := 64 }).endsOsc 0 0 (.measurementCompletion 0 244624) ∧
    ((ending 1).voice (oscVoice 0)).state = .tuning ∧ ((ending 1).voicing .A).mode = .poly ∧
    ((ending 1).voicing .A).restore = false ∧ (∀ x ∈ (ending 1).pendingList 0, x.osc ≠ siblingOf 0) ∧
    (ending 1).pendingList 0 = [] ∧
    (∀ d : CardId, (ending 1).pendingList d = [] ∧ (d ≠ 0 → ((ending 1).chan d).state = .idle)) ∧
    (∃ j, (ending 1).tun.job = some j ∧ j.background = false ∧ (ending 1).cellAt j.area j.cell = some 256 ∧
      j.firstFailure = none) ∧
    (∃ m, ((ending 1).poke 512 0x96).rpu.tuneArea = some m ∧ ((ending 1).poke 512 0x96).reportFull m) := by
  refine ⟨by unfold State.memoryOk; decide, by unfold State.listsOk; decide,
    ranges_of _ rfl rfl rfl, ⟨by decide, by decide, by decide, .inl rfl⟩,
    ⟨by decide, by decide, by decide, .inr ⟨1, 255, rfl, by decide, by decide, by decide, by decide, by decide, by decide⟩⟩,
    ⟨by decide, by decide, by decide,
      .inr ⟨244624, 255, rfl, by decide, by decide, by decide, by decide, by decide, by decide⟩⟩,
    by decide, by decide, by decide, by decide, by decide, by decide, ⟨_, rfl, by decide, by decide, by decide⟩,
    2, by decide, _, rfl, by decide, fun hi => absurd (hi : _).1 (by decide)⟩

/-- The voice's other oscillator is pending; or one of another voice comes first. -/
theorem witness_NoSignalFinishesTheOscillator_goes : siblingOf 0 = 1 ∧
    (ending 3).pendingList 0 = [] ++ ⟨siblingOf 0, 8 :: []⟩ :: [] ∧ (ending 3).endsOsc 0 0 (.noSignal 0) ∧
    (ending 5).pendingList 0 = ⟨2, 8 :: []⟩ :: [] ∧ (∀ x ∈ (ending 5).pendingList 0, x.osc ≠ siblingOf 0) ∧
    (ending 5).endsOsc 0 0 (.noSignal 0) ∧ ((ending 5).voice (oscVoice 0)).state = .tuning :=
  ⟨by decide, by decide, ⟨by decide, by decide, by decide, .inl rfl⟩, by decide, by decide,
    ⟨by decide, by decide, by decide, .inl rfl⟩, by decide⟩

/-- A queue of four; a calibration request beside a job; a queue of three. -/
theorem witness_StoreClassAdmission : crowded.memoryOk ∧ crowded.requestAt 1 256 ∧ (∃ a, crowded.active 1 = some a) ∧
    4 ≤ crowded.rqu.queue.length ∧ tuning.tun.job.isSome = true ∧
    (let q := crowded.rqu.queue.tail
    q ≠ [] ∧ q.length < 4) ∧ small.tun.job = none ∧ (199#8).toNat = (199 : SlotId).val ∧ 1 ≤ (1#8).toNat ∧
    (3#8).toNat ≤ 3 :=
  ⟨small_memory, small_request, ⟨_, rfl⟩, by decide, by decide, by decide, rfl, by decide, by decide, by decide⟩

/-- Head page 5 filled up to its last 40 bytes, slot 7 in it, two calibration generations. -/
def stored : State :=
  { small with
    pst :=
      { small.pst with
        pages := ((small.pst.pages.set 5 ⟨.head, 1, 3, 472, true⟩).set 0 ⟨.used, 1, 1, 8, true⟩).set 1 ⟨.used, 1, 2, 8, true⟩
        index := small.pst.index.set 7 (some ⟨5, 8⟩)
        currentCal := some 1 }
    flash := [(2572, 0), (2573, 10)] }

theorem witness_ServiceTakesItsFirstStep : stored.memoryOk ∧ stored.requestAt 1 256 ∧ stored.rqu.queue = [] ∧
    stored.pst.step = none ∧ stored.lookup 7 = some ⟨5, 8⟩ ∧ stored.pst.readOnly = false ∧ stored.headPage = some 5 ∧
    (stored.page 5).writePos + 4 * (stored.storeRecord .A 7 false false).length ≤ 512 ∧
    (stored.page 5).writePos + 8 ≤ 512 ∧ stored.tun.job = none ∧ stored.ringOrder = 2 :: [3, 0, 1] ∧
    (stored.page 2).state ≠ .bad ∧ stored.pst.currentCal ≠ some 2 ∧ stored.pst.currentCal = some 1 ∧
    stored.olderCal 1 = 0 :: [] :=
  ⟨by unfold State.memoryOk; decide, ⟨_, rfl, rfl, by decide⟩, rfl, rfl, by decide, rfl, by decide, by decide, by decide,
    rfl, by decide, by decide, by decide, rfl, by decide⟩

theorem stored_memory : stored.memoryOk := witness_ServiceTakesItsFirstStep.1

/-- Patch pages in these states, with sequences in page order and 32 bytes left, every other page BAD; slot 7's record is
in page 8. -/
def packed (l : List (PageId × PageState)) : State :=
  { small with
    pst :=
      { small.pst with
        pages := l.foldl (fun v x => tset v x.1 ⟨x.2, 1, BitVec.ofNat 16 x.1.val, 480, true⟩)
          (Vector.replicate 64 ⟨.bad, 0, 0, 8, true⟩)
        index := tset small.pst.index 7 (some ⟨8, 8⟩) }
    flash := [(4109, 10)] }

theorem noCurrent_of (s : State) (p : PageId)
    (h : ∀ k : SlotId, ((tget s.pst.index k).elim true fun l => l.page != p) = true) : s.noCurrent p := fun k l hk => by
  have := h k
  rw [hk] at this
  simpa using this

/-- The patch pages in a state. -/
def pagesIn (s : State) (x : PageState) : List PageId :=
  (List.finRange 64).filter fun q => decide (4 ≤ q.val) && (s.page q).state = x

/-- Two ERASED pages, one, and none; the oldest FULL page with a current record and without; a head and no head. -/
theorem witness_ServiceTakesItsFirstStep_room :
    let two := packed [(5, .head), (6, .erased), (7, .erased)]
    let held := packed [(6, .erased), (8, .full), (9, .full)]
    let old := packed [(5, .head), (6, .erased), (9, .full)]
    let none' := packed [(5, .head), (8, .full), (9, .full)]
    two.pst.readOnly = false ∧ two.headPage = some 5 ∧
    512 < (two.page 5).writePos + 4 * (10 + 2 * ((0#8).getLsbD 1).toNat + 4 * ((0#8).getLsbD 0).toNat) ∧
    2 ≤ (pagesIn two .erased).length ∧ held.headPage = none ∧ held.leastErasedPage 6 ∧
    (pagesIn held .erased).length = 1 ∧ held.oldestFull (pagesIn held .full) 8 ∧ ¬ held.noCurrent 8 ∧
    (pagesIn old .erased).length = 1 ∧ old.oldestFull (pagesIn old .full) 9 ∧ old.noCurrent 9 ∧
    pagesIn none' .erased = [] ∧ none'.oldestFull ((pagesIn none' .full).filter fun q => !none'.hasCurrent q) 9 :=
  ⟨rfl, by decide, by decide, by decide, by decide, by unfold State.leastErasedPage; decide, by decide,
    by unfold State.oldestFull; decide, fun h => h 7 ⟨8, 8⟩ (by decide) rfl, by decide,
    by unfold State.oldestFull; decide, noCurrent_of _ _ (by decide), by decide, by unfold State.oldestFull; decide⟩

/-- No ERASED page, a current record in the one FULL page, and 32 bytes left in the head. -/
theorem witness_ServiceWithoutAStep_noPage :
    let s := packed [(5, .head), (8, .full)]
    s.pst.readOnly = false ∧ s.pst.step = none ∧
      (∀ q : PageId, 4 ≤ q.val → (s.page q).state ≠ .erased ∧ ((s.page q).state = .full → ¬ s.noCurrent q)) ∧
      s.headPage = some 5 ∧ 512 < (s.page 5).writePos + 40 := by
  refine ⟨rfl, rfl, fun q _ => ?_, by decide, by decide⟩
  have h : ∀ q : PageId, ((packed [(5, .head), (8, .full)]).page q).state ≠ .erased ∧
      (((packed [(5, .head), (8, .full)]).page q).state = .full → q = 8) := by decide
  refine ⟨(h q).1, fun hf hn => ?_⟩
  obtain rfl := (h q).2 hf
  exact hn 7 ⟨8, 8⟩ (by decide) rfl

theorem witness_ServiceWithoutAStep : small.rqu.queue = [] ∧ small.lookup 0 = none ∧ small.pst.readOnly = false ∧
    ({ small with pst := { small.pst with readOnly := true } } : State).pst.readOnly = true ∧
    small.pst.currentCal = none ∧ small.tun.job = none := by decide

theorem witness_StoreStatusReportsTheStore : (∀ p : PageId, (stored.page p).eraseCount < 2 ^ 24) ∧
    stored.pst.currentCal = some 1 ∧ small.pst.currentCal = none := by decide

theorem witness_StoredRecordsReadBack : (small.voicing .A).ok := by unfold Voicing.ok; decide

theorem witness_ProgramCompletion : stored.memoryOk ∧
    (∃ s : State, s.memoryOk ∧ s.pst.step = some (.program 63 511 0x00 .recByte) ∧ 511 < 512) ∧
    ∃ (s : State) (svc : Service), s.pst.step = some (.program 5 473 0x00 (.recSealed 7 472)) ∧ s.pst.service = some svc ∧
      svc.phase = .record false [] ∧ svc.victim = none ∧ (∃ r, svc.op = .write r) ∧ tget s.pst.index 7 = some ⟨5, 8⟩ :=
  ⟨witness_ServiceTakesItsFirstStep.1,
    ⟨{ small with pst := { small.pst with step := some (.program 63 511 0x00 .recByte) } }, small_memory, rfl, by decide⟩,
    { stored with pst :=
      { stored.pst with
        step := some (.program 5 473 0x00 (.recSealed 7 472))
        service := some ⟨.write (tombstoneRecord 7), .record false [], none, 0⟩ } },
    _, rfl, rfl, rfl, rfl, ⟨_, rfl⟩, by decide⟩

/-- A state with a flash step in progress for an operation. -/
def working (s : State) (st : FlashStep) (svc : Service) : State :=
  { s with pst := { s.pst with step := some st, service := some svc } }

/-- A header's last byte on a patch page and on a calibration page, any header byte, an OPEN and a FULL byte. -/
theorem witness_ProgramCompletion_roles :
    ∀ x ∈ [(ByteRole.header true, Phase.opening 4 [], (4 : PageId)), (.header true, .opening 3 [], 3),
      (.header false, .opening 63 [⟨0, 0, .header true⟩], 63), (.recOpen 10, .record false [], 5), (.full, .markFull false, 5)],
    let s := working stored (.program x.2.2 0 0x00 x.1) ⟨.write (tombstoneRecord 7), x.2.1, none, 0⟩
    s.pst.step = some (.program x.2.2 0 0x00 x.1) ∧
      s.pst.service = some ⟨.write (tombstoneRecord 7), x.2.1, none, 0⟩ := fun _ _ => ⟨rfl, rfl⟩

/-- The queue's one entry and its cell. -/
def entry : StoreEntry := ⟨.eraseSlot 7, 1, 0⟩

theorem entry_served (s : State) (h : s.rqu.queue = [entry]) (hm : s.mpa = small.mpa) : s.servedAt entry 256 := by
  refine ⟨by rw [h]; rfl, ?_, by decide⟩
  unfold State.cellAt State.active
  rw [hm]
  rfl

/-- A mismatch that is the first, with room for the record again, and one that is not. -/
theorem witness_ProgramCompletion_mismatch :
    let s (n : Nat) := working { stored with rqu := { queue := [entry] } } (.program 5 470 0x55 .recByte)
      ⟨.write (tombstoneRecord 7), .record false [], none, n⟩
    (s 0).memoryOk ∧ (s 1).memoryOk ∧ (s 0).pst.step = some (.program 5 470 0x55 .recByte) ∧ (s 0).headPage = some 5 ∧
      ((s 0).page 5).writePos + 4 * (tombstoneRecord 7).length ≤ 512 ∧ (0x54#8) ≠ 0x55 ∧
      (s 1).rqu.queue = [entry] ∧ (s 1).servedAt entry 256 ∧ (s 1).mpa.device = .run :=
  ⟨stored_memory, stored_memory, rfl, by decide, by decide, by decide, rfl, entry_served _ rfl rfl, rfl⟩

/-- A new head opened for a victim without a current record, and for one with a record of ten units. -/
theorem witness_ProgramCompletion_victim :
    let s (v : PageId) := working (packed [(8, .full), (9, .full)]) (.program 6 0 0x00 (.header true))
      ⟨.write (tombstoneRecord 7), .opening 6 [], some v, 0⟩
    (∀ q : PageId, ((s 8).page q).state ≠ .head) ∧ (s 9).noCurrent 9 ∧
      (∃ k : SlotId, tget (s 8).pst.index k = some ⟨8, 8⟩) ∧
      (∀ (k : SlotId) (l' : Loc), tget (s 8).pst.index k = some l' → l'.page = 8 → l' = ⟨8, 8⟩ ∨ 8 < l'.off) ∧
      8 + 4 * ((s 8).setFlash 6 0 0x00).recordLength ⟨8, 8⟩ ≤ 512 := by
  refine ⟨by decide, noCurrent_of _ _ (by decide), ⟨7, by decide⟩, fun k l' hk _ => .inl ?_, by decide⟩
  have h : ∀ k : SlotId, ((tget (packed [(8, .full), (9, .full)]).pst.index k).elim true fun l => l == ⟨8, 8⟩) = true := by
    decide
  have := h k
  rw [show tget (packed [(8, .full), (9, .full)]).pst.index k = some l' from hk] at this
  simpa using this

theorem witness_ProgramCompletion_calSealed :
    let svc : Service := ⟨.storeCal [], .calRecord 3 [], none, 0⟩
    let s := working { stored with rqu := { queue := [entry] } } (.program 3 9 0x00 .calSealed) svc
    s.memoryOk ∧ s.pst.service = some svc ∧ s.rqu.queue = [entry] ∧ s.servedAt entry 256 ∧ s.mpa.device = .run :=
  ⟨stored_memory, rfl, rfl, entry_served _ rfl rfl, rfl⟩

/-- A head with room beside the erased page; and the erase of a STORE_CAL's target. -/
theorem witness_EraseCompletionBlanksThePage_next :
    (let s := working stored (.erase 63 8) ⟨.write (tombstoneRecord 7), .erasing, some 63, 0⟩
    s.headPage = some 5 ∧ (s.page 63).state ≠ .head ∧ (s.page 5).writePos + 4 * (tombstoneRecord 7).length ≤ 512) ∧
    let svc : Service := ⟨.storeCal [0, 1], .calErase 3, none, 0⟩
    (working stored (.erase 3 8) svc).pst.service = some svc ∧ (3 : PageId).val < 4 :=
  ⟨by decide, rfl, by decide⟩

theorem witness_EraseCompletionBlanksThePage :
    ∃ (s : State) (svc : Service) (r : PatchRec), s.memoryOk ∧ s.pst.step = some (.erase 63 8) ∧
      s.pst.service = some svc ∧ svc.phase = .erasing ∧ svc.op = .write r ∧ s.pst.readOnly = false ∧
      residueWf [] = true ∧ residueWf [(0, 0x00), (511, 0xFE)] = true :=
  ⟨{ small with pst :=
      { small.pst with step := some (.erase 63 8), service := some ⟨.write (tombstoneRecord 7), .erasing, some 63, 0⟩ } },
    _, _, small_memory, rfl, rfl, rfl, rfl, rfl, by decide, by decide⟩

/-- The scanning part with a flash step in progress. -/
def reading (st : FlashStep) (svc : Service) : State :=
  { State.reset with pst := { State.reset.pst with step := some st, service := some svc } }

theorem witness_ReadCompletion :
    (∃ (s : State) (svc : Service), s.pst.step = some (.read 5 8 40) ∧ s.pst.service = some svc ∧
      svc.phase = .recordRead ∧ svc.op = .recall 3 ⟨5, 8⟩ ∧
      (bufferRecord ([0, 0, 0xFF, 7] ++ [0, 10, 1, 0] ++ List.replicate 32 0)).sumOk = true ∧
      (bufferRecord ([0, 0, 0xFF, 7] ++ [0, 10, 1, 1] ++ List.replicate 32 0)).sumOk = false) ∧
    ∃ (s : State) (svc : Service), s.pst.step = some (.read 3 8 486) ∧ s.pst.service = some svc ∧
      s.mpa.device = .starting ∧ svc.op = .scan ∧ svc.phase = .calRead 3 [] ∧
      calValid ([0, 0] ++ List.replicate 484 0) = true ∧ calValid (s.flashBytes 3 8 486) = false := by
  refine ⟨⟨reading (.read 5 8 40) ⟨.recall 3 ⟨5, 8⟩, .recordRead, none, 0⟩, _, rfl, rfl, rfl, rfl, ?_, ?_⟩,
    reading (.read 3 8 486) ⟨.scan, .calRead 3 [], none, 0⟩, _, rfl, rfl, rfl, rfl, rfl, ?_, ?_⟩ <;> decide

/-- A REVERT_CAL that reads a valid record, and one that reads none with a page left to try or none left; a SLOT_INFO. -/
theorem witness_ReadCompletion_results :
    (let s (rest : List PageId) := working { stored with
        rqu := { queue := [entry] }, flash := [(1544, 0), (1545, 0), (2029, 0xE3)] }
      (.read 3 8 486) ⟨.revertCal [], .calRead 3 rest, none, 0⟩
    (s []).memoryOk ∧ (s []).servedAt entry 256 ∧ (s []).mpa.device = .run ∧ calValid ((s []).flashBytes 3 8 486) = true ∧
      (s [2]).pst.service = some ⟨.revertCal [], .calRead 3 [2], none, 0⟩) ∧
    calValid (stored.flashBytes 2 8 486) = false ∧
    let s := working { stored with rqu := { queue := [entry] } } (.read 5 8 40) ⟨.info ⟨5, 8⟩, .recordRead, none, 0⟩
    s.memoryOk ∧ s.servedAt entry 256 ∧ s.mpa.device = .run :=
  ⟨⟨by unfold State.memoryOk; decide, entry_served _ rfl rfl, rfl, by decide, rfl⟩, by decide, stored_memory, entry_served _ rfl rfl, rfl⟩

/-- The start-up scan in a phase, with some pages classified, their numbers as sequences. -/
def scanning (l : List (PageId × PageState)) (st : FlashStep) (ph : Phase) : State :=
  { reading st ⟨.scan, ph, none, 0⟩ with pst :=
    { (reading st ⟨.scan, ph, none, 0⟩).pst with
      pages := l.foldl (fun v x => tset v x.1 ⟨x.2, 1, BitVec.ofNat 16 x.1.val, 8, true⟩) State.reset.pst.pages } }

/-- Page 63's header read is the last: the patch sequence continues behind it, and the walk begins with page 5
(R148, R149). -/
theorem test_scan_counted :
    let s := after .readCompletion { scanning [(5, .full), (6, .candidate), (0, .used), (1, .used)]
      (.read 63 0 8) (.scanHeader 63) with flash := [(32256, 0), (32258, 0x50), (32262, 7), (32263, 0)] }
    s.pst.step = some (.read 5 0 512) ∧ s.pst.seqPatch = 8 ∧ s.pst.seqCal = 2 := by decide

/-- A header in use on a patch page and on a calibration page, a blank header, and one that is neither; a blank page and
one that is not; a page the scan must erase. -/
theorem witness_ReadCompletion_classify :
    let s (p : PageId) (flash : List Host.Cell) := { scanning [] (.read p 0 8) (.scanHeader p) with flash := flash }
    let b (p : PageId) (flash : List Host.Cell) (i : Nat) : Byte := (s p flash).flashByte p i
    (State.reset.pst.step = some (.read 0 0 8) ∧ State.reset.pst.service = some ⟨.scan, .scanHeader 0, none, 0⟩) ∧
    (b 4 [(2048, 0), (2050, 0x50)] 0 = 0x00 ∧ b 4 [(2048, 0), (2050, 0x50)] 2 = (if 4 ≤ (4 : PageId).val then 0x50 else 0x43)) ∧
    (b 3 [(1536, 0), (1538, 0x43)] 0 = 0x00 ∧ b 3 [(1536, 0), (1538, 0x43)] 2 = (if 4 ≤ (3 : PageId).val then 0x50 else 0x43)) ∧
    (∀ i, i < 8 → b 63 [] i = 0xFF) ∧ b 63 [(32256, 0)] 0 = 0x00 ∧ b 63 [(32256, 0)] 2 ≠ 0x50 ∧
    (∃ q : PageId, q.val = (62 : PageId).val + 1) ∧
    (scanning [] (.read 7 0 512) (.scanWhole 7)).pst.step = some (.read 7 0 512) ∧
    (scanning [] (.erase 7 8) (.scanErase 7)).pst.service = some ⟨.scan, .scanErase 7, none, 0⟩ :=
  ⟨⟨rfl, rfl⟩, by decide, by decide, by decide, by decide, by decide, ⟨63, rfl⟩, rfl, rfl⟩

/-- A page that holds nothing, and one whose first record, of two units, stands before a blank OPEN. -/
theorem witness_ReadCompletion_walk :
    let s (flash : List Host.Cell) := { scanning [(5, .candidate)] (.read 5 0 512) (.walkRead 5 []) with flash := flash }
    recordsTo ((s []).flashBytes 5 0 512) 8 [] 8 ∧ (s []).allFresh ((s []).flashBytes 5 0 512) [] ∧
      (let b := (s [(2568, 0), (2573, 2)]).flashBytes 5 0 512
      recordsTo b 8 [8] 16 ∧ (s [(2568, 0), (2573, 2)]).allFresh b [8] ∧ b.getD 16 0xFF = 0xFF) ∧
      ((s []).pst.step = some (.read 5 0 512) ∧ (s []).pst.service = some ⟨.scan, .walkRead 5 [], none, 0⟩) := by
  refine ⟨rfl, fun _ h => absurd h List.not_mem_nil, ⟨⟨rfl, ?_, ?_⟩, fun r hr k _ => ⟨?_, fun r' hr' hne => ?_⟩, by decide⟩,
    rfl, rfl⟩
  · unfold recordAt
    decide
  · unfold recordsTo
    decide
  · exact tget_replicate none k
  · exact absurd ((List.mem_singleton.mp hr').trans (List.mem_singleton.mp hr).symm) hne

/-- The steps of the scan: a superseded record's RETIRED byte, a FULL byte in the walk and of a head candidate, and the
opening of a head, whose header reads back well or not; the erase of a spare round. -/
theorem witness_ProgramCompletion_scan :
    (let s := scanning [(5, .full), (6, .candidate)] (.program 5 10 0x00 .retired) (.walkProgram 6 (some 8) [])
    s.pst.step = some (.program 5 10 0x00 .retired) ∧ s.pst.service = some ⟨.scan, .walkProgram 6 (some 8) [], none, 0⟩ ∧
      (s.pst.buffer.getD (8 + 3) 0).toNat = (0 : SlotId).val ∧ 8 ≤ 8 ∧
      recordsTo s.pst.buffer (8 + 4 * (s.pst.buffer.getD (8 + 5) 0).toNat) [] 8 ∧
      (s.putIndex 0 ⟨6, 8⟩).allFresh s.pst.buffer []) ∧
    ((scanning [(6, .candidate)] (.program 6 1 0x00 .full) (.walkProgram 6 none [])).pst.service =
        some ⟨.scan, .walkProgram 6 none [], none, 0⟩ ∧
      (scanning [(6, .full)] (.program 6 1 0x00 .full) (.headFull [7])).pst.service =
        some ⟨.scan, .headFull [7], none, 0⟩ ∧
      (scanning [] (.program 4 0 0x00 (.header true)) (.opening 4 [])).pst.service =
        some ⟨.scan, .opening 4 [], none, 0⟩ ∧ 4 ≤ (4 : PageId).val ∧ (0xFF#8) ≠ 0x00) ∧
    (scanning [] (.erase 9 8) .erasing).pst.service = some ⟨.scan, .erasing, none, 0⟩ :=
  ⟨⟨rfl, rfl, by decide, by decide, rfl, fun _ h => absurd h List.not_mem_nil⟩, ⟨rfl, rfl, rfl, by decide, by decide⟩, rfl⟩

/-- A calibration page read in the scan with a page left to try, valid and not. -/
theorem witness_ReadCompletion_scan :
    let s := { scanning [] (.read 3 8 486) (.calRead 3 [2]) with flash := [(1544, 0), (1545, 0), (2029, 0xE3)] }
    calValid (s.flashBytes 3 8 486) = true ∧ calValid (s.flashBytes 2 8 486) = false ∧ s.mpa.device = .starting ∧
      s.pst.service = some ⟨.scan, .calRead 3 [2], none, 0⟩ :=
  ⟨by decide, by decide, rfl, rfl⟩

/-- Steps a RESTART left: without an operation, and with a waiting one that fits in the head, that a read-only store ends,
and that finds no page to try; each entry at the head of the queue with its cell. -/
theorem witness_leftover :
    let s (op : StoreOp) (st : FlashStep) := working { stored with rqu := { queue := [entry] } } st ⟨op, .waiting, none, 0⟩
    ({ stored with pst := { stored.pst with step := some (.erase 9 8) } } : State).leftStep ∧
      (s (.write (tombstoneRecord 7)) (.program 9 1 0x00 .full)).leftStep ∧ residueWf [] = true ∧
      (let t := after (.programCompletion 0x00) (s (.write (tombstoneRecord 7)) (.program 9 1 0x00 .full))
      t.pst.readOnly = false ∧ t.headPage = some 5 ∧ (t.page 5).writePos + 8 ≤ 512 ∧
        t.pst.step = some (.program 5 472 0x00 (.recOpen 2))) ∧
      (let t := after (.eraseCompletion []) (s (.storeCal []) (.erase 9 8))
      t.ringOrder = [] ++ 2 :: [3, 0, 1] ∧ ¬ t.calBarred 2 ∧ t.pst.step = some (.erase 2 8)) ∧
      (let t := after .readCompletion (s (.revertCal []) (.read 9 0 8))
      t.pst.currentCal = some 1 ∧ t.olderCal 1 = 0 :: [] ∧ t.pst.step = some (.read 0 8 486)) ∧
      (s (.storeCal []) (.erase 9 8)).memoryOk ∧ (s (.storeCal []) (.erase 9 8)).servedAt entry 256 :=
  ⟨.inl rfl, .inr ⟨_, rfl, rfl⟩, rfl, by decide,
    ⟨by decide, by unfold State.calBarred; decide, by decide⟩, by decide, stored_memory, entry_served _ rfl rfl⟩

/-- A header cut short by a RESTART leaves its page FULL (R151); a leftover erase that fails leaves it BAD (R137). -/
theorem test_leftover_page :
    let s (st : FlashStep) := { stored with pst := { stored.pst with step := some st } }
    ((after (.programCompletion 0x50) (s (.program 9 2 0x50 (.header false)))).page 9).state = .full ∧
      ((after (.eraseCompletion [(0, 0)]) (s (.erase 9 8))).page 9).state = .bad := by decide

/-- A reclaim of page 8, whose one current record, of slot 7, is being copied into head 5: the copy's seal, a seal that
fails, and the read of a copy; and a head with no room for the copy that is left. -/
theorem witness_reclaim :
    let s (st : FlashStep) (ph : Phase) (n : Nat) := working { packed [(5, .head), (8, .full)] with
        rqu := { queue := [entry] } } st ⟨.write (tombstoneRecord 9), ph, some 8, n⟩
    let sl := s (.program 5 441 0x00 (.recSealed 7 440)) (.record true []) 0
    (sl.pst.service = some ⟨.write (tombstoneRecord 9), .record true [], some 8, 0⟩ ∧ sl.servedAt entry 256 ∧
        (sl.page 8).state = .full) ∧
      (tget (after (.programCompletion 0x00) sl).pst.index 7 = some ⟨5, 440⟩ ∧
        (after (.programCompletion 0x00) sl).pst.step = some (.erase 8 8)) ∧
      (let t := after (.programCompletion 0x01) sl
      tget t.pst.index 7 = some ⟨8, 8⟩ ∧ t.headPage = some 5 ∧ 512 < (t.page 5).writePos + t.recordBytes ⟨8, 8⟩ ∧
        t.rqu.queue = []) ∧
      (let r := s (.read 8 8 40) (.copyRead ⟨8, 8⟩) 0
      r.headPage = some 5 ∧ 8 ≤ 40 ∧
        (after .readCompletion r).pst.step = some (.program 5 480 0x00 (.recOpen 10))) :=
  ⟨⟨rfl, entry_served _ rfl rfl, by decide⟩, by decide, by decide, by decide⟩

/-- An opening that fails, with two ERASED pages left and inside a reclaim; a STORE_CAL that fails, with a candidate left
and with none; the FULL byte of a head switch and of a copy's end; the RETIRED byte. -/
theorem witness_openings :
    let at' (ph : Phase) (op : StoreOp) (v : Option PageId) (n : Nat) := working { packed [(6, .erased), (7, .erased), (9, .erased)] with
        rqu := { queue := [entry] } } (.program 6 2 0x50 (.header false)) ⟨op, ph, v, n⟩
    let w : StoreOp := .write (tombstoneRecord 9)
    (after (.programCompletion 0) (at' (.opening 6 []) w none 0)).pst.step = some (.program 7 2 0x50 (.header false)) ∧
      (after (.programCompletion 0) (at' (.opening 6 []) w (some 8) 0)).pst.step = some (.erase 6 8) ∧
      (after (.programCompletion 0) (at' (.opening 6 []) w none 1)).rqu.queue = [] ∧
      (let c (ring : List PageId) := working { stored with rqu := { queue := [entry] } } (.program 3 10 0x55 .calByte)
        ⟨.storeCal ring, .calRecord 3 [], none, 0⟩
      ((c [0, 2]).page 0).state ≠ .bad ∧ (after (.programCompletion 0) (c [1, 0])).pst.step = some (.erase 0 8) ∧
        (after (.programCompletion 0) (c [])).rqu.queue = []) ∧
      (∀ ph ∈ [Phase.markFull false, .markFull true, .retiring, .record false [⟨9, 0, .recByte⟩]],
        (at' ph w none 0).pst.service = some ⟨w, ph, none, 0⟩) :=
  ⟨by decide, by decide, by decide, by decide, fun _ _ => rfl⟩

theorem witness_SlotsOfTheRefreshEngine :
    (∃ k, State.reset.rfe.slot = some k ∧ k.strobing = false) ∧
    (∃ k, (after .load State.reset).rfe.slot = some k ∧ k.strobing = true) ∧ State.reset.rfe.jump = [] ∧
    State.reset.mpa.setup.gateHold ≠ 0 ∧ ∃ n rest, crowded.rfe.jump = n :: rest :=
  ⟨⟨_, rfl, rfl⟩, ⟨_, rfl, rfl⟩, rfl, by decide, _, _, rfl⟩

/-- A queue that is full, and one that has room for a channel it does not hold. -/
theorem witness_PushesOfTheJumpQueue : 32 ≤ crowded.rfe.jump.length ∧ (127 : ChanId) ∉ crowded.rfe.jump ∧
    crowded.jumpOk ∧ (127 : ChanId) ∉ crowded.rfe.jump.tail ∧ crowded.rfe.jump.tail.length < 32 :=
  ⟨by decide, by decide, by unfold State.jumpOk; decide, by decide, by decide⟩

/-- A PENDING voice 0 with one or both written flags, its gap running or stopped. -/
def waiting (a b gap : Bool) : State :=
  withVoice sounding 0 (fun r => { r with state := .pending, aWritten := a, bWritten := b, gapRunning := gap })
    sounding.val.free [0] []

theorem witness_GatesOpenAndHold_gap : ((waiting true true true).voice 0).state = .pending ∧
    (waiting true true true).mpa.setup.gateHold ≠ 0 ∧ ((waiting true true true).voice 0).gapRunning = true ∧
    ((waiting true true true).voice 0).aWritten = true ∧ ((waiting true true true).voice 0).bWritten = true ∧
    ((waiting true false true).voice 0).bWritten = false := by decide

theorem witness_GatesOpenAndHold_written :
    let s := { waiting true false false with rfe :=
      { small.rfe with slot := some ⟨chanOf 0 1, 0, some 1, none, 0, 8, true⟩ } }
    (∃ k, s.rfe.slot = some k ∧ k.strobing = true ∧ k.chan = chanOf 0 1 ∧ k.onset = some (s.voice 0).onset ∧
      (s.voice 0).gapRunning = false ∧ (s.voice 0).aWritten = true) ∧
    some (0#32) ≠ some (s.voice 0).onset ∧ ((s.voice 0).aWritten && (s.voice 0).bWritten) = false :=
  ⟨⟨_, rfl, rfl, rfl, by decide, by decide, by decide⟩, by decide, by decide⟩

theorem witness_GatesOpenAndHold_hold :
    let s := withVoice sounding 0 (fun r => { r with holdRunning := true, offDeferred := true }) sounding.val.free [0] []
    s.listsOk ∧ (s.voice 0).state = .on ∧ (s.voice 0).holdRunning = true ∧ (s.voice 0).offDeferred = true ∧
      s.nrt.pedal.get (s.voice 0).part = false ∧ (s.voicing (s.voice 0).part).mode = .poly ∧
      (s.voicing (s.voice 0).part).restore = false ∧ s.tun.job = none :=
  ⟨by unfold State.listsOk; decide, by decide, by decide, by decide, by decide, by decide, by decide, rfl⟩

/-- A gate hold of 0, at the gap expiry and at the last of the two written events. -/
theorem witness_GatesOpenAndHold_zero :
    let z (s : State) : State := { s with mpa := { s.mpa with setup := { s.mpa.setup with gateHold := 0 } } }
    let s := z { waiting true false false with rfe :=
      { small.rfe with slot := some ⟨chanOf 0 1, 0, some 1, none, 0, 8, true⟩ } }
    ((z (waiting true true true)).voice 0).state = .pending ∧ (z (waiting true true true)).mpa.setup.gateHold = 0 ∧
      ((z (waiting true true true)).voice 0).gapRunning = true ∧
      (∃ k, s.rfe.slot = some k ∧ k.strobing = true ∧ k.onset = some (s.voice 0).onset ∧ k.chan = chanOf 0 1 ∧
        (s.voice 0).gapRunning = false ∧ (s.voice 0).aWritten = true) :=
  ⟨by decide, by decide, by decide, _, rfl, rfl, by decide, rfl, by decide, by decide⟩

/-- The release comes due of a POLY part's voice with restore, of a MONO part's only busy voice with a key held and with
none, and under a background job whose card's channel is IDLE and finds the voice FREE. -/
theorem witness_GatesOpenAndHold_release :
    let due (s : State) : State := withVoice s 0 (fun r => { r with
      state := .on, key := some 60, holdRunning := true, offDeferred := true }) [1, 2, 3, 4, 5, 6, 7, 8, 9, 10, 11] [0] []
    let held (l : List HeldKey) (s : State) : State := { s with nrt := { s.nrt with held := ⟨l, []⟩ } }
    let restoring := held [⟨62, 90⟩] (due (small.putVoicing .A { small.voicing .A with restore := true }))
    let mono := due (inMode small .mono)
    let lending := due (after (.tune 1 1 0x100 0 1) sounding)
    restoring.listsOk ∧ restoring.newestWithout .A 0 (restoring.held .A) ⟨62, 90⟩ ∧ restoring.nrt.pedal.get .A = false ∧
      (mono.listsOk ∧ mono.busyOf .A = [0] ∧ (mono.voicing .A).mode ≠ .poly ∧ mono.held .A = [] ∧
        (held [⟨62, 90⟩] mono).held .A ≠ [] ∧ mono.background = false ∧ isPriority .last [(⟨62, 90⟩ : HeldKey)] ⟨62, 90⟩) ∧
      lending.listsOk ∧ lending.background = true ∧ (lending.chan 0).state = .idle ∧
      lending.pendingList 0 = [] ++ ⟨0, 8 :: []⟩ :: [] ∧ oscVoice 0 = 0 ∧ voiceCard 0 = 0 := by
  refine ⟨by unfold State.listsOk; decide, ⟨[], [], by decide, by decide, by decide⟩, by decide,
    ⟨by unfold State.listsOk; decide, by decide, by decide, by decide, by decide, by decide, by unfold isPriority; decide⟩,
    by unfold State.listsOk; decide, by decide, by decide, by decide, by decide, by decide⟩

/-- A gliding voice below its target. -/
theorem witness_GlideExpirySteps :
    let r := (withVoice sounding 0 (fun r => { r with key := some 127, glideActive := true }) sounding.val.free [0] []).voice 0
    r.state.busy = true ∧ r.glideActive = true ∧ r.key = some 127 ∧
      (r.c.val : Int) ≤ clampInt 0 32767 (((127 : Int) + 0) * 256) := by decide

/-- Switches 63 to 65 one reading before a change. -/
def nearly : Vector Switch 66 :=
  tset (tset (tset small.psc.switches 63 ⟨false, 3, .report⟩) 64 ⟨false, 3, .sustainBoth⟩) 65 ⟨true, 3, .sustainBoth⟩

/-- Switches 64 and 65 change and set both pedals, the last one standing; a REPORT switch changes; nothing changes. -/
theorem witness_ScansOfThePanel : small.psc.pass = none ∧ small.mpa.device ≠ .held ∧ State.reset.mpa.device ≠ .run ∧
    small.mpa.device = .run ∧ (after (.deviceReset true) small).mpa.device = .held ∧
    let s : State := { small with psc := { small.psc with switches := nearly } }
    let changed (closed : SwitchId → Bool) (j : SwitchId) : Prop := closed j ≠ (tget s.psc.switches j).closed ∧
      s.mpa.setup.debounce ≤ (tget s.psc.switches j).count + 1
    changed (readsClosed ⟨open8, 0b10⟩) 64 ∧ changed (readsClosed ⟨open8, 0b10⟩) 65 ∧
      (∀ i : SwitchId, 65 < i → ¬ changed (readsClosed ⟨open8, 0b10⟩) i) ∧
      changed (readsClosed ⟨open8.set 7 0x7F, 0b01⟩) 63 ∧ (tget s.psc.switches 63).func = .report ∧
      (∀ j : SwitchId, changed (readsClosed ⟨open8.set 7 0x7F, 0b01⟩) j → (tget s.psc.switches j).func = .report) ∧
      (∀ j : SwitchId, ¬ changed (readsClosed ⟨open8, 0b01⟩) j) ∧ s.rpu.panelArea = some 2 ∧ s.rpu.voiceArea = some 2 := by
  decide

/-- A change at the deadband is taken and one below it is not; the end zones act off the deadband. -/
theorem witness_KnobSamplesActThroughTheMode :
    let s := { small with psc := { small.psc with pass := some ⟨false, 47⟩ } }.putKnob 47
      ⟨100, .catchMode, .absolute 39, true, .below⟩
    s.psc.pass = some ⟨false, 47⟩ ∧ s.mpa.device = .run ∧
      s.mpa.setup.deadband ≤ ((108 : Int) - (s.knob 47).last.val).natAbs ∧
      ¬ s.mpa.setup.deadband ≤ ((107 : Int) - (s.knob 47).last.val).natAbs ∧ (s.knob 47).mode = .catchMode ∧
      s.resolve (s.knob 47).target = some 39 ∧ (s.knob 47).last = 100 := by decide

/-- A DETACHED CATCH knob that reaches its target's value, crosses it from below, and does not; an ATTACHED one; knobs of
the other modes; another DETACHED CATCH knob on the parameter; the baseline pass; no area and a full one for the reports. -/
theorem witness_KnobSamplesActThroughTheMode_catch :
    let s (k : Knob) (baseline : Bool) : State := { small with psc :=
      { small.psc with
        pass := some ⟨baseline, 47⟩
        knobs := tset (tset small.psc.knobs 47 k) 0 ⟨5, .catchMode, .absolute 39, true, .below⟩ } }
    let low : Knob := ⟨100, .catchMode, .absolute 39, true, .below⟩
    (tget (s low false).prb.params 39).val = 2048 ∧ (s low false).resolve ((s low false).knob 47).target = some 39 ∧
      (2048 = (tget (s low false).prb.params 39).val ∨ (low.side = .below ∧ 2048 < 2048)) ∧
      (low.side = .below ∧ (tget (s low false).prb.params 39).val < 2049) ∧
      ¬ (2047 = (tget (s low false).prb.params 39).val ∨ (tget (s low false).prb.params 39).val < 2047) ∧
      ((s { low with detached := false } false).knob 47).detached = false ∧
      ((s { low with mode := .direct } false).knob 47).mode = .direct ∧
      ((s { low with mode := .relative } false).knob 47).mode = .relative ∧
      ((s { low with target := .none } true).knob 47).target = .none ∧
      ((s low false).knob 0).mode = .catchMode ∧ ((s low false).knob 0).detached = true ∧
      (s low false).resolve ((s low false).knob 0).target = some 39 ∧ (s low true).psc.pass = some ⟨true, 47⟩ ∧
      State.reset.rpu.panelArea = none ∧ (s low false).rpu.panelArea = some 2 := by decide

theorem witness_ParameterChannels : 3 ≤ (3 : Fin 10).val ∧ (120 : ChanId).val = 120 + (0 : Fin 8).val ∧
    (0 : ParamVal) < 1 := by decide

theorem witness_PitchArithmetic : tableRises nominalTable = true ∧ (0 : Int) ≤ 32767 ∧ (2 ≤ 12 ∧ 11 < 12) ∧
    (small.voice 0).state.busy = false ∧ (sounding.voicing (sounding.voice 0).part).mode ≠ .unison := by decide

/-- Part A is UNISON with two busy voices; and with one. -/
theorem witness_PitchArithmetic_unison :
    let s (n : Fin 13) := { inMode sounding .unison with val := { sounding.val with group := ⟨n, 0⟩ } }
    ((s 2).voice 0).state.busy = true ∧ ((s 2).voicing ((s 2).voice 0).part).mode = .unison ∧
      ((s 2).val.group.get ((s 2).voice 0).part).val = 2 ∧ ((s 1).val.group.get .A).val < 2 := by decide

/-- The small state with its image written: the areas lie apart and the image is true, with a note waiting; and the
state after reset. -/
theorem witness_ImageStaysTrueToItsSources :
    (let s := { (small.pokes 1024 small.wholeImage) with pending := [.keyOn 0 1 60 100 0] }
    s.layoutOk ∧ s.memoryOk ∧ s.imageTrue ∧ (∀ c, s.pending.head? = some c → ¬ s.writesFreely c) ∧
      ∃ t, step s = .next t) ∧ State.reset.layoutOk ∧ State.reset.imageTrue := by
  have areas : ∀ n a, tget small.mpa.areas n = some a → a.ok := by
    intro n a h
    have h8 : ∀ n : AreaId, ((tget small.mpa.areas n).elim true fun a =>
        decide (32 ≤ a.start ∧ a.start < a.stop ∧ a.stop ≤ 2048 ∧ (a.kind = .image → a.start + 88 ≤ a.stop) ∧
          (a.kind ≠ .image → a.pos < a.count ∧ a.count * a.kind.cellSize ≤ 4 * (a.stop - a.start)))) = true := by
      decide
    have := h8 n
    rw [h] at this
    unfold Area.ok
    exact of_decide_eq_true this
  have apart : ∀ m n a b, m ≠ n → tget small.mpa.areas m = some a → tget small.mpa.areas n = some b →
      (a.stop ≤ b.start ∨ b.stop ≤ a.start) ∧ ¬ (a.kind = .image ∧ b.kind = .image) := by
    intro m n a b hmn hm hn
    have h8 : ∀ m n : AreaId, m ≠ n → ((tget small.mpa.areas m).elim true fun a => (tget small.mpa.areas n).elim true
        fun b => decide ((a.stop ≤ b.start ∨ b.stop ≤ a.start) ∧ ¬ (a.kind = .image ∧ b.kind = .image))) = true := by
      decide
    have := h8 m n hmn
    rw [hm, hn] at this
    exact of_decide_eq_true this
  have lay : small.layoutOk :=
    by
    refine ⟨areas, apart, fun j h => ?_, fun e h => ?_, fun v h => ?_⟩
    · exact absurd (h : none = some j) (Option.some_ne_none j).symm
    · exact absurd (h : e ∈ ([] : List StoreEntry)) List.not_mem_nil
    · exact absurd (h : none = some v) (Option.some_ne_none v).symm
  have wf : Memory.wf Config.memFill Config.memSize small.mem = true := by decide
  have img : readsAs (small.pokes 1024 small.wholeImage) 1024 small.wholeImage :=
    small.peeks_pokes 1024 _ (by decide) wf
  rw [small.pokes_only] at img ⊢
  have mem := small.pokes_wf 1024 small.wholeImage wf
  refine ⟨⟨lay, ⟨mem, rfl⟩, fun base h => ?_, fun c h => ?_, _, rfl⟩, ⟨rfl, rfl, fun h => ?_⟩, fun base h => ?_⟩
  · obtain rfl : 1024 = base := Option.some.inj h
    exact img
  · obtain rfl : Instr.keyOn 0 1 60 100 0 = c := Option.some.inj h
    exact fun h => h
  · exact absurd h (by decide)
  · exact absurd (h : none = some base) (Option.some_ne_none base).symm

theorem witness_RangeFlagsOfAComputation : (tuning.voice 0).state = .tuning ∧ (small.voice 0).state ≠ .tuning := by decide

end Sys2Proof.Tests
end

section
/-! PROOFS. The CV Calculator's arithmetic: the terms of a pitch, the expansion of a parameter, the CUTOFF code, and what
a computation of a channel other than a pitch channel hands back (R43 to R46, R56, R57). -/

namespace Sys2Proof.Machine

variable (s : State) (v : VoiceId)

/-! ### Parameters and channels -/

theorem State.param_lt (p : Part) (i : Fin 16) : s.param p i < 4096 := (tget s.prb.params (partParam p i)).isLt

theorem State.global_lt (g : Fin 8) : s.global g < 4096 := (tget s.prb.params ⟨32 + g.val, by omega⟩).isLt

@[simp] theorem oscVoice_oscA : oscVoice (oscA v) = v := Fin.ext (by simp [oscVoice, oscA])

@[simp] theorem oscVoice_oscB : oscVoice (oscB v) = v := Fin.ext (by simp only [oscVoice, oscB]; omega)

@[simp] theorem oscA_even : (oscA v).val % 2 = 0 := by simp [oscA]

@[simp] theorem oscB_odd : (oscB v).val % 2 = 1 := by simp only [oscB]; omega

theorem chanVoice_chanOf (f : Fin 10) : chanVoice (chanOf v f) = some v := by
  have lt : (chanOf v f).val < 120 := by simp only [chanOf]; omega
  rw [chanVoice, dif_pos lt]
  exact congrArg some (Fin.ext (by simp only [chanOf]; omega))

theorem chanOf_mod (f : Fin 10) : (chanOf v f).val % 10 = f.val := by simp only [chanOf]; omega

theorem chanOsc_chanOf_eq_none (f : Fin 10) (hf : 2 ≤ f.val) : chanOsc (chanOf v f) = none := by
  rw [chanOsc, dif_neg]
  rw [chanOf_mod]
  omega

theorem chanVoice_eq_none (n : ChanId) (hn : 120 ≤ n.val) : chanVoice n = none := dif_neg (by omega)

/-! ### The computation of a channel that carries no pitch (R43) -/

/-- A voice's channel other than its two pitch channels takes the code of its function and leaves the state alone. -/
theorem State.compute_chanOf (f : Fin 10) (hf : 2 ≤ f.val) :
    s.compute (chanOf v f) = ⟨s.voiceCode v f.val, some (s.voice v).onset, none, s⟩ := by
  simp only [State.compute, chanVoice_chanOf, chanOsc_chanOf_eq_none v f hf, chanOf_mod]

/-- Channel 120 + g takes the expansion of global value g and leaves the state alone. -/
theorem State.compute_global (g : Fin 8) (n : ChanId) (hn : n.val = 120 + g.val) :
    s.compute n = ⟨expandCode (s.global g), none, none, s⟩ := by
  have place : Fin.ofNat 8 (n.val - 120) = g := Fin.ext (by simp only [Fin.ofNat]; omega)
  simp only [State.compute, chanVoice_eq_none n (by omega), place]

/-! ### The expansion (R57) -/

/-- The clamp of the model's expansion never acts on a parameter value. -/
theorem expandCode_val (p : Nat) (hp : p < 4096) : (expandCode p).val = p * 16 + p / 256 := by
  have clamp := clampFin_val 65535 (p * 16 + p / 256 : Nat)
  rw [← expandCode, clampInt, if_neg (by omega), if_neg (by omega)] at clamp
  exact Int.ofNat_inj.1 clamp

theorem expandCode_lt {p q : ParamVal} (h : p < q) : expandCode p.val < expandCode q.val := by
  have lt : p.val < q.val := h
  have floor : p.val / 256 ≤ q.val / 256 := Nat.div_le_div_right lt.le
  rw [Fin.lt_def, expandCode_val _ p.isLt, expandCode_val _ q.isLt]
  omega

theorem State.voiceCode_expanded (f : Fin 10) (hf : 3 ≤ f.val) :
    s.voiceCode v f.val = expandCode (s.param (s.voice v).part (Fin.ofNat 16 (f.val + 4))) :=
  if_neg (by omega)

/-! ### The CUTOFF code (R56) -/

/-- The key that the CUTOFF code tracks: an absent key counts as 60 (R44). -/
def Voice.trackedKey (r : Voice) : Nat := (r.key.map (·.val)).getD 60

theorem Voice.trackedKey_of_none (r : Voice) (h : r.key = none) : r.trackedKey = 60 := by
  simp [Voice.trackedKey, h]

theorem Voice.trackedKey_of_some (r : Voice) (k : Key) (h : r.key = some k) : r.trackedKey = k.val := by
  simp [Voice.trackedKey, h]

/-- The CUTOFF code is the clamped sum of P4 × 16 and the two floored quotients. -/
theorem cutoffCode_val (p4 p5 p6 key velocity : Nat) :
    ((cutoffCode p4 p5 p6 key velocity).val : Int) =
      clampInt 0 65535 ((p4 : Int) * 16 + Int.fdiv (((key : Int) - 60) * 512 * p5) 4096 +
        Int.fdiv (((velocity : Int) - 64) * p6) 8) := by
  rw [cutoffCode, clampFin_val, Int.fdiv_eq_ediv_of_nonneg _ (by decide), Int.fdiv_eq_ediv_of_nonneg _ (by decide)]
  push_cast
  rfl

theorem State.voiceCode_cutoff :
    ((s.voiceCode v 2).val : Int) =
      clampInt 0 65535 ((s.param (s.voice v).part 4 : Int) * 16 +
        Int.fdiv (((s.voice v).trackedKey - 60) * 512 * s.param (s.voice v).part 5) 4096 +
        Int.fdiv (((s.voice v).velocity.val - 64) * s.param (s.voice v).part 6) 8) :=
  cutoffCode_val _ _ _ _ _

/-- Settles O56: the computation of a channel without a pitch is its function's code, and the code is the expansion or
the clamped cutoff sum. -/
theorem parameterChannels : Obligations.ParameterChannels := by
  unfold Obligations.ParameterChannels
  refine ⟨⟨fun s v f hf => ?voiceChannel, fun s g n hn => ?globalChannel, ?zero, ?mid, ?top, fun p q => expandCode_lt⟩,
    fun s v => ?cutoff⟩
  case voiceChannel =>
    rw [s.compute_chanOf v f (by omega)]
    refine ⟨rfl, Fin.ofNat 16 (f.val + 4), Nat.mod_eq_of_lt (by omega), ?_⟩
    rw [s.voiceCode_expanded v f hf]
    exact expandCode_val _ (s.param_lt _ _)
  case globalChannel =>
    rw [s.compute_global g n hn]
    exact ⟨rfl, expandCode_val _ (s.global_lt g)⟩
  case zero | mid | top => exact expandCode_val _ (by decide)
  case cutoff =>
    rw [s.compute_chanOf v 2 (by decide)]
    refine ⟨rfl, ?_⟩
    have code := s.voiceCode_cutoff v
    cases hkey : (s.voice v).key with
    | none =>
      rw [Voice.trackedKey_of_none _ hkey] at code
      exact code
    | some k =>
      rw [Voice.trackedKey_of_some _ k hkey] at code
      exact code

/-! ### Coarse and fine terms (R45) -/

theorem coarseTerm_eq_fdiv (p : Nat) : coarseTerm p = Int.fdiv ((p : Int) * 48 + 2047) 4095 - 24 := by
  rw [coarseTerm, Int.fdiv_eq_ediv_of_nonneg _ (by decide)]
  push_cast
  rfl

theorem fineTerm_eq_fdiv (p : Nat) : fineTerm p = Int.fdiv (p : Int) 16 - 128 := by
  rw [fineTerm, Int.fdiv_eq_ediv_of_nonneg _ (by decide)]
  push_cast
  rfl

theorem coarseTerm_bounds (p : ParamVal) : -24 ≤ coarseTerm p.val ∧ coarseTerm p.val ≤ 24 := by
  unfold coarseTerm
  omega

theorem fineTerm_bounds (p : ParamVal) : -128 ≤ fineTerm p.val ∧ fineTerm p.val ≤ 127 := by
  unfold fineTerm
  omega

/-! ### The bend offset (R46) -/

theorem bendOffset_eq_fdiv (b : Int) (r : Nat) : bendOffset b r = Int.fdiv (b * r + 16) 32 :=
  (Int.fdiv_eq_ediv_of_nonneg _ (by decide)).symm

theorem bendOffset_range_zero (b : Int) : bendOffset b 0 = 0 := by simp [bendOffset]

/-- The ends of the bender reach the whole bend range, r semitones of 256 pitch units. -/
theorem bendOffset_ends (r : Fin 13) :
    bendOffset 8191 r.val = 256 * r.val ∧ bendOffset (-8192) r.val = -256 * (r.val : Int) := by
  unfold bendOffset
  omega

/-! ### The pitch sum of a voice's oscillators (R52) -/

/-- The pitch terms that a voice's two oscillators share: c, bend and unison offset. -/
def State.sharedPitch : Int :=
  ((s.voice v).c.val : Int) + bendOffset (s.nrt.bend.get (s.voice v).part) (s.voicing (s.voice v).part).bendRange +
    s.unisonOffset v

theorem State.pitchSum_oscA :
    s.pitchSum (oscA v) = s.sharedPitch v + 256 * coarseTerm (s.param (s.voice v).part 0) +
      fineTerm (s.param (s.voice v).part 15) := by
  simp only [State.pitchSum, oscVoice_oscA, oscA_even, if_true, State.sharedPitch]
  omega

theorem State.pitchSum_oscB :
    s.pitchSum (oscB v) = s.sharedPitch v + 256 * coarseTerm (s.param (s.voice v).part 1) +
      fineTerm (s.param (s.voice v).part 2) := by
  simp only [State.pitchSum, oscVoice_oscB, oscB_odd, Nat.one_ne_zero, if_false, State.sharedPitch]
  omega

/-- Settles O57: the terms are the floored quotients of the rules, and the bounds follow from the parameter range. -/
theorem pitchTerms : Obligations.PitchTerms := by
  unfold Obligations.PitchTerms
  refine ⟨⟨fun p => ?terms, by decide, by decide, by decide, by decide, by decide, by decide, by decide, by decide,
    fun p q => ?reach, fun s v => ⟨s.pitchSum_oscA v, s.pitchSum_oscB v⟩⟩,
    bendOffset_eq_fdiv, bendOffset_range_zero, bendOffset_ends, by decide, by decide⟩
  case terms =>
    obtain ⟨coarseLow, coarseHigh⟩ := coarseTerm_bounds p
    exact ⟨coarseTerm_eq_fdiv p.val, coarseLow, coarseHigh, fineTerm_eq_fdiv p.val, fineTerm_bounds p⟩
  case reach =>
    have coarse := coarseTerm_bounds p
    have fine := fineTerm_bounds q
    omega

end Sys2Proof.Machine
end

section
/-! PROOFS. The jump queue: what a push does, that it keeps the queue's bound and its distinctness, how the slot boundary
takes the head, and which operations push (R5, R21, R61, R66, R68). -/

namespace Sys2Proof.Machine

variable (s : State)

/-! ### The outcomes of a push (R66) -/

theorem State.push_refused {n : ChanId} (h : n ∈ s.rfe.jump ∨ Config.jumpDepth ≤ s.rfe.jump.length) :
    s.push n = s := if_pos h

theorem State.push_joins {n : ChanId} (absent : n ∉ s.rfe.jump) (room : s.rfe.jump.length < Config.jumpDepth) :
    s.push n = { s with rfe := { s.rfe with jump := s.rfe.jump ++ [n] } } :=
  if_neg (not_or.2 ⟨absent, room.not_ge⟩)

theorem State.push_keeps_jumpOk (n : ChanId) (ok : s.jumpOk) : (s.push n).jumpOk := by
  rcases s.push_cases n with ⟨stays, -⟩ | ⟨joins, absent, room⟩
  · rwa [stays]
  · obtain ⟨-, nodup⟩ := ok
    rw [joins]
    constructor
    · simpa using room
    · exact List.nodup_append_comm.1 (List.nodup_cons.2 ⟨absent, nodup⟩)

/-- What a push makes of the queue depends on the queue alone. -/
theorem State.push_jump_congr {t : State} (n : ChanId) (same : t.rfe.jump = s.rfe.jump) :
    (t.push n).rfe.jump = (s.push n).rfe.jump := by
  rcases s.push_cases n with ⟨stays, refused⟩ | ⟨joins, absent, room⟩
  · rw [stays, t.push_refused (same ▸ refused), same]
  · rw [joins, t.push_joins (same ▸ absent) (same ▸ room), same]

/-! ### The slot boundary (R61) -/

theorem State.chooseChannel_of_cons {h : ChanId} {rest : List ChanId} (queue : s.rfe.jump = h :: rest) :
    s.chooseChannel = (h, { s with rfe := { s.rfe with jump := rest } }) := by
  unfold State.chooseChannel
  rw [queue]

/-- The channel whose slot begins leaves a queue that names each channel once, so a push during its slot finds the channel
absent and, one entry being gone, finds room. -/
theorem State.push_head_of_chooseChannel {h : ChanId} {rest : List ChanId} (ok : s.jumpOk)
    (queue : s.rfe.jump = h :: rest) :
    h ∉ rest ∧ s.chooseChannel.2.push h = { s with rfe := { s.rfe with jump := rest ++ [h] } } := by
  obtain ⟨bound, nodup⟩ := ok
  rw [queue] at bound nodup
  have absent : h ∉ rest := (List.nodup_cons.1 nodup).1
  refine ⟨absent, ?_⟩
  rw [s.chooseChannel_of_cons queue]
  exact State.push_joins _ absent bound

/-! ### The pushers (R5, R21, R68) -/

theorem State.assign_rfe (v : VoiceId) (e : HeldKey) (i : VoiceId) (multi : Bool) :
    (s.assign v e i multi).rfe = (s.pushVoice v).rfe := by
  unfold State.assign
  exact State.pushVoice_rfe s _ v (by rw [State.putVoice_rfe])

theorem State.singleChange_rfe (v : VoiceId) (e : HeldKey) : (s.singleChange v e).rfe = (s.pushVoice v).rfe := by
  unfold State.singleChange
  exact State.pushVoice_rfe s _ v (by rw [State.putVoice_rfe])

theorem State.setOverride_jump (o : OscId) (code : Code) :
    (s.setOverride o code).rfe.jump = (s.push (pitchChan o)).rfe.jump := by
  unfold State.setOverride
  exact s.push_jump_congr (pitchChan o) rfl

/-- Settles O51, from the outcomes of a push, the slot boundary and the engine's state after each pusher. -/
theorem pushesOfTheJumpQueue : Obligations.PushesOfTheJumpQueue := by
  unfold Obligations.PushesOfTheJumpQueue
  refine ⟨rfl, fun s n => ⟨s.push_refused, s.push_keeps_jumpOk n, s.push_joins, rfl, fun h rest ok queue => ?boundary,
    fun v e i multi o code => ?pushers⟩⟩
  case boundary =>
    obtain ⟨absent, again⟩ := s.push_head_of_chooseChannel ok queue
    have chosen := s.chooseChannel_of_cons queue
    refine ⟨by rw [chosen], by rw [chosen], ?_, again⟩
    rw [chosen]
    exact absent
  case pushers =>
    obtain ⟨stamp, entry, -⟩ := s.setOverride_rfe o code
    exact ⟨s.assign_rfe v e i multi, s.singleChange_rfe v e, s.setOverride_jump o code, stamp, entry⟩

end Sys2Proof.Machine
end

section
/-! PROOFS. The port's registers: a write to one byte of SUMMARY or of ENABLE, the bytes a read returns, and the
interrupt line (R168, R169). -/

namespace Sys2Proof.Machine

variable (s : State)

/-! ### One byte of a 9-bit register (R168) -/

/-- The low byte holds bits 0 to 7, and bit 0 of the high byte is bit 8. -/
theorem halfWord_getLsbD (high : Bool) (data : Byte) (i : Fin 9) :
    (halfWord high data).getLsbD i.val = (high == decide (8 ≤ i.val) && data.getLsbD (i.val % 8)) := by
  by_cases top : i.val = 8
  · cases high <;> simp [halfWord, top]
  · have low : i.val < 8 := by omega
    have inByte : i.val % 8 = i.val := Nat.mod_eq_of_lt low
    cases high <;> simp [halfWord, inByte, low, i.isLt]

theorem byte_ones_getLsbD (i : Nat) : (0xFF : Byte).getLsbD (i % 8) = true := by
  have lt : i % 8 < 8 := Nat.mod_lt _ (by decide)
  interval_cases i % 8 <;> rfl

theorem State.echo_summary_getLsbD (high : Bool) (data : Byte) (i : Fin 9) :
    (s.echo high data).mpa.summary.getLsbD i.val =
      (s.mpa.summary.getLsbD i.val && !(high == decide (8 ≤ i.val) && data.getLsbD (i.val % 8))) := by
  simp only [State.echo_mpa, BitVec.getLsbD_and, BitVec.getLsbD_not, i.isLt, decide_true, Bool.true_and,
    halfWord_getLsbD]

theorem State.setEnable_enable_getLsbD (high : Bool) (data : Byte) (i : Fin 9) :
    (s.setEnable high data).mpa.enable.getLsbD i.val =
      if high = decide (8 ≤ i.val) then data.getLsbD (i.val % 8) else s.mpa.enable.getLsbD i.val := by
  simp only [State.setEnable, BitVec.getLsbD_or, BitVec.getLsbD_and, BitVec.getLsbD_not, i.isLt, decide_true,
    Bool.true_and, halfWord_getLsbD, byte_ones_getLsbD, Bool.and_true]
  by_cases written : high = decide (8 ≤ i.val)
  · simp [written]
  · simp [written, beq_eq_false_iff_ne.2 written]

/-! ### The write cycles and the read-back (R168) -/

theorem exec_summaryEcho_open (high : Bool) (data : Byte) (isOpen : s.mpa.device ≠ .held) :
    exec (.summaryEcho high data) s = .next (s.echo high data) :=
  congrArg _ (s.ifOpen_open _ isOpen)

theorem exec_enableWrite_open (high : Bool) (data : Byte) (isOpen : s.mpa.device ≠ .held) :
    exec (.enableWrite high data) s = .next (s.setEnable high data) :=
  congrArg _ (s.ifOpen_open _ isOpen)

/-- A read of a 9-bit register's low byte gives bits 0 to 7. -/
theorem lowByte_getLsbD (x : BitVec 9) (j : Fin 8) : (x.setWidth 8).getLsbD j.val = x.getLsbD j.val := by
  simp

/-- A read of its high byte gives bit 8, with zeros above it. -/
theorem highByte_getLsbD (x : BitVec 9) (j : Fin 8) :
    ((x >>> 8).setWidth 8).getLsbD j.val = (decide (j.val = 0) && x.getLsbD 8) := by
  by_cases zero : j.val = 0
  · simp [zero]
  · have above : 9 ≤ 8 + j.val := by omega
    simp [zero, BitVec.getLsbD_of_ge x _ above]

/-! ### The interrupt line (R169) -/

theorem State.interrupt_eq_true_iff :
    s.interrupt = true ↔
      ∃ i : Fin 9, s.mpa.summary.getLsbD i.val = true ∧ s.mpa.enable.getLsbD i.val = true := by
  have common (i : Nat) : (s.mpa.summary &&& s.mpa.enable).getLsbD i = true ↔
      s.mpa.summary.getLsbD i = true ∧ s.mpa.enable.getLsbD i = true := by simp
  have nonzero_iff : s.interrupt = true ↔ s.mpa.summary &&& s.mpa.enable ≠ 0#9 := bne_iff_ne
  rw [nonzero_iff]
  constructor
  · intro nonzero
    by_contra! disjoint
    refine nonzero (BitVec.eq_of_getLsbD_eq fun i hi => ?_)
    rw [BitVec.getLsbD_zero, Bool.eq_false_iff, Ne, common]
    exact fun ⟨set, enabled⟩ => disjoint ⟨i, hi⟩ set enabled
  · rintro ⟨i, both⟩ zero
    rw [← common, zero, BitVec.getLsbD_zero] at both
    exact Bool.noConfusion both

@[simp] theorem State.readOnlyTest_mpa : s.readOnlyTest.mpa = s.mpa := by
  unfold State.readOnlyTest
  split <;> rfl

theorem State.scanEnd_mpa :
    s.scanEnd.mpa =
      { s.mpa with device := .setup, summary := s.mpa.summary ||| BitVec.twoPow 9 8 } := by
  simp [State.scanEnd]

/-- The state change at the end of the scan raises the line when it is enabled. -/
theorem State.scanEnd_interrupt (enabled : s.mpa.enable.getLsbD 8 = true) : s.scanEnd.interrupt = true := by
  rw [State.interrupt_eq_true_iff, State.scanEnd_mpa]
  exact ⟨8, by simp, enabled⟩

/-- Settles O10: each write is read off bit by bit, and the line is asserted when SUMMARY AND ENABLE has a bit set. -/
theorem registersAndInterruptLine : Obligations.RegistersAndInterruptLine := by
  unfold Obligations.RegistersAndInterruptLine
  refine ⟨⟨rfl, fun s high data isOpen => ⟨?summaryWrite, ?enableWrite, fun j => ?readBack⟩⟩,
    fun s => ⟨s.interrupt_eq_true_iff, s.scanEnd_interrupt⟩⟩
  case summaryWrite =>
    exact ⟨_, exec_summaryEcho_open s high data isOpen, rfl, s.echo_summary_getLsbD high data⟩
  case enableWrite =>
    exact ⟨_, exec_enableWrite_open s high data isOpen, rfl, s.setEnable_enable_getLsbD high data⟩
  case readBack =>
    exact ⟨lowByte_getLsbD s.mpa.summary j, highByte_getLsbD s.mpa.summary j, lowByte_getLsbD s.mpa.enable j,
      highByte_getLsbD s.mpa.enable j⟩

end Sys2Proof.Machine
end

section
/-! PROOFS. RUN entry on a directory that fails: the checks of one entry in the terms of the statements, the entries
before it, and what a failing RUN entry leaves (R155, R160, R161). -/

namespace Sys2Proof.Machine

variable (s : State) (n : AreaId)

/-! ### A failing RUN entry (R161) -/

theorem State.stateChange_summary_getLsbD (i : Nat) :
    s.stateChange.mpa.summary.getLsbD i = (s.mpa.summary.getLsbD i || decide (i = 8)) := by
  by_cases top : i = 8 <;> simp [top, BitVec.getLsbD_twoPow, eq_comm]

/-- The fault code and the entry index fit their fields of STATUS. -/
theorem State.status_setup_toNat (inSetup : s.mpa.device = .setup) :
    s.status.toNat = 1 + 4 * s.mpa.faultCode.code + 32 * s.mpa.faultEntry.val := by
  have entry := s.mpa.faultEntry.isLt
  have code : s.mpa.faultCode.code ≤ 6 := by cases s.mpa.faultCode <;> decide
  rw [State.status, inSetup]
  exact Nat.mod_eq_of_lt (by omega)

theorem State.exec_run_fault {n : AreaId} {f : DirFault} (inSetup : s.mpa.device = .setup)
    (fails : s.validate [] allAreas = some (n, f)) : exec .run s = .next (s.runFault n f) := by
  have entry : s.runCommand = s.runFault n f := by simp only [State.runCommand, inSetup, State.runEntry, fails]
  exact congrArg _ entry

theorem State.runFault_status (f : DirFault) (inSetup : s.mpa.device = .setup) :
    (s.runFault n f).status.toNat = 1 + 4 * f.code + 32 * n.val :=
  (s.runFault n f).status_setup_toNat inSetup

theorem State.runFault_summary_getLsbD (f : DirFault) (i : Nat) :
    (s.runFault n f).mpa.summary.getLsbD i = (s.mpa.summary.getLsbD i || decide (i = 8)) :=
  State.stateChange_summary_getLsbD _ i

/-! ### The entries before an entry -/

/-- The indices below `n`, ascending. -/
def areasBefore : List AreaId := allAreas.take n.val

/-- The entries that `n` is checked against. -/
def State.entriesBefore : List DirEntry := (areasBefore n).map s.readEntry

theorem mem_areasBefore {m : AreaId} : m ∈ areasBefore n ↔ m < n := by
  revert m n
  decide

theorem allAreas_filter_le : allAreas.filter (· ≤ n) = areasBefore n ++ [n] := by
  revert n
  decide

theorem length_filter_le_and (p : AreaId → Bool) (self : p n = true) :
    (allAreas.filter fun m => m ≤ n && p m).length = ((areasBefore n).filter p).length + 1 := by
  simp_rw [Bool.and_comm, ← List.filter_filter, allAreas_filter_le, List.filter_append, List.filter_singleton, self]
  simp

theorem allAreas_drop : allAreas.drop n.val = n :: allAreas.drop (n.val + 1) := by
  revert n
  decide

theorem State.entriesBefore_append :
    s.entriesBefore n ++ [s.readEntry n] = (allAreas.take (n.val + 1)).map s.readEntry := by
  have next : areasBefore n ++ [n] = allAreas.take (n.val + 1) := by revert n; decide
  rw [State.entriesBefore, ← next, List.map_append, List.map_singleton]

theorem State.any_entriesBefore (p : DirEntry → Bool) :
    (s.entriesBefore n).any p = true ↔ ∃ m : AreaId, m < n ∧ p (s.readEntry m) = true := by
  simp [State.entriesBefore, mem_areasBefore]

/-! ### The checks of an entry (R160) -/

/-- The fault code that stands for a failing check (R155, R160). -/
def DirCheck.fault : DirCheck → DirFault
  | .kind | .kindCount => .kindLimit
  | .bounds => .outOfRange
  | .tooSmall => .tooSmall
  | .imageSize => .imageSize
  | .overlap => .overlap
  | .joins => .joinConflict

@[simp] theorem DirCheck.fault_code (k : DirCheck) : k.fault.code = k.code := by cases k <;> rfl

/-- The number by which an entry names its kind (R159). -/
def AreaKind.num : AreaKind → Nat
  | .note => 1
  | .request => 2
  | .report => 3
  | .image => 4

theorem DirEntry.kind_of_areaKind {e : DirEntry} {k : AreaKind} (describes : e.areaKind = some k) : e.kind = k.num := by
  unfold DirEntry.areaKind at describes
  split_ifs at describes with note request report image <;> cases describes
  · exact note
  · exact request
  · exact report
  · exact image

theorem DirEntry.areaKind_eq_none_iff (e : DirEntry) : e.areaKind = none ↔ e.kind = 0 ∨ 4 < e.kind := by
  unfold DirEntry.areaKind
  split_ifs <;> simp <;> omega

section Checks

variable {s n} {k : AreaKind} (hk : (s.readEntry n).kind = k.num)

include hk

theorem State.failsCheck_tooSmall :
    s.failsCheck n .tooSmall ↔ k ≠ .image ∧ cellCount k (s.readEntry n).start (s.readEntry n).stop < 2 := by
  rw [State.failsCheck, hk]
  cases k <;> simp [AreaKind.num, cellCount, AreaKind.cellSize]

theorem State.failsCheck_imageSize :
    s.failsCheck n .imageSize ↔ k = .image ∧ (s.readEntry n).stop - (s.readEntry n).start < 88 := by
  rw [State.failsCheck, hk]
  cases k <;> simp [AreaKind.num]

theorem State.failsCheck_kindCount :
    s.failsCheck n .kindCount ↔
      k.limit ≤ ((s.entriesBefore n).filter fun d => d.kind = (s.readEntry n).kind).length := by
  have limit : kindLimit (s.readEntry n).kind = k.limit := by rw [hk]; cases k <;> rfl
  rw [State.failsCheck, limit, length_filter_le_and n _ (by simp), Nat.lt_succ_iff, State.entriesBefore,
    List.filter_map, List.length_map]
  rfl

theorem State.failsCheck_joins :
    s.failsCheck n .joins ↔
      k = .report ∧
        (s.entriesBefore n).any (fun d => d.kind = 3 && d.joins &&& (s.readEntry n).joins != 0) = true := by
  have report : (s.readEntry n).kind = 3 ↔ k = .report := by rw [hk]; cases k <;> decide
  rw [State.failsCheck, report, s.any_entriesBefore]
  simp

end Checks

theorem State.failsCheck_bounds :
    s.failsCheck n .bounds ↔
      (s.readEntry n).start < 32 ∨ 2048 < (s.readEntry n).stop ∨ (s.readEntry n).stop ≤ (s.readEntry n).start :=
  Iff.rfl

theorem State.failsCheck_overlap :
    s.failsCheck n .overlap ↔
      (s.entriesBefore n).any (fun d => d.kind != 0 && d.overlaps (s.readEntry n)) = true := by
  rw [State.failsCheck, s.any_entriesBefore]
  simp [DirEntry.overlaps]

/-- The seven checks in their order. -/
def allChecks : List DirCheck := [.kind, .bounds, .tooSmall, .imageSize, .overlap, .kindCount, .joins]

theorem allChecks_split (k : DirCheck) :
    allChecks = allChecks.filter (·.rank < k.rank) ++ k :: allChecks.filter (k.rank < ·.rank) := by
  cases k <;> rfl

open Classical in
/-- An entry that is not NONE has the fault of the first check that fails. -/
theorem State.fault_readEntry (present : (s.readEntry n).kind ≠ 0) :
    (s.readEntry n).fault (s.entriesBefore n) = (allChecks.find? (s.failsCheck n ·)).map DirCheck.fault := by
  unfold DirEntry.fault allChecks
  rw [if_neg present]
  cases kind : (s.readEntry n).areaKind with
  | none =>
    have unknown : s.failsCheck n .kind := ((DirEntry.areaKind_eq_none_iff _).1 kind).resolve_left present
    simp [unknown, DirCheck.fault]
  | some k =>
    have known : ¬ s.failsCheck n .kind := fun above => by
      rw [(DirEntry.areaKind_eq_none_iff _).2 (.inr above)] at kind
      cases kind
    have hk := DirEntry.kind_of_areaKind kind
    simp only [← State.failsCheck_bounds, ← State.failsCheck_tooSmall hk, ← State.failsCheck_imageSize hk,
      ← State.failsCheck_overlap, ← State.failsCheck_kindCount hk, ← State.failsCheck_joins hk]
    split_ifs <;> simp [*, DirCheck.fault]

/-- An entry of kind NONE passes at once, and every other one that fails no check. -/
theorem State.fault_readEntry_none (passes : (s.readEntry n).kind ≠ 0 → ∀ k, ¬ s.failsCheck n k) :
    (s.readEntry n).fault (s.entriesBefore n) = none := by
  by_cases present : (s.readEntry n).kind = 0
  · exact if_pos present
  · simp [s.fault_readEntry n present, passes present]

theorem State.fault_readEntry_first {k : DirCheck} (present : (s.readEntry n).kind ≠ 0) (fails : s.failsCheck n k)
    (first : ∀ k' : DirCheck, k'.rank < k.rank → ¬ s.failsCheck n k') :
    (s.readEntry n).fault (s.entriesBefore n) = some k.fault := by
  rw [s.fault_readEntry n present, Option.map_eq_some_iff]
  refine ⟨k, List.find?_eq_some_iff_append.2 ?_, rfl⟩
  refine ⟨by simpa using fails, _, _, allChecks_split k, fun k' before => ?_⟩
  simpa using first k' (by simpa using (List.mem_filter.1 before).2)

/-! ### Validation of the entries in order (R160) -/

/-- Validation reaches an entry when every entry before it passes. -/
theorem State.validate_reaches (i : Nat) (bound : i ≤ 8)
    (pass : ∀ m : AreaId, m.val < i → (s.readEntry m).fault (s.entriesBefore m) = none) :
    s.validate [] allAreas = s.validate ((allAreas.take i).map s.readEntry) (allAreas.drop i) := by
  induction i with
  | zero => rfl
  | succ i ih =>
    let m : AreaId := ⟨i, bound⟩
    have here : (s.readEntry m).fault ((allAreas.take i).map s.readEntry) = none := pass m i.lt_succ_self
    calc s.validate [] allAreas
      _ = s.validate (s.entriesBefore m) (allAreas.drop m.val) :=
        ih (Nat.le_of_succ_le bound) fun m' before => pass m' (Nat.lt_succ_of_lt before)
      _ = s.validate (s.entriesBefore m ++ [s.readEntry m]) (allAreas.drop (i + 1)) := by
        rw [allAreas_drop, State.validate, State.entriesBefore, areasBefore]
        simp only [m, here]
      _ = s.validate ((allAreas.take (i + 1)).map s.readEntry) (allAreas.drop (i + 1)) := by
        rw [s.entriesBefore_append]

/-- The first entry that fails is the one that validation names. -/
theorem State.validate_eq_some {f : DirFault}
    (pass : ∀ m : AreaId, m < n → (s.readEntry m).fault (s.entriesBefore m) = none)
    (fails : (s.readEntry n).fault (s.entriesBefore n) = some f) : s.validate [] allAreas = some (n, f) := by
  rw [s.validate_reaches n.val n.isLt.le pass, allAreas_drop, State.validate]
  rw [State.entriesBefore, areasBefore] at fails
  simp only [fails]

/-- Settles O13: the first entry to fail, with the fault of its first failing check, is what validation hands to the
failing RUN entry. -/
theorem failedRunEntry : Obligations.FailedRunEntry := by
  unfold Obligations.FailedRunEntry
  refine ⟨fun s n f inSetup fault => ?leaves, fun s n k inSetup earlier present fails first => ?named⟩
  case leaves =>
    refine ⟨_, s.exec_run_fault inSetup fault, s.runFault_status n f inSetup, ?_, rfl, fun i => ?_⟩
    · simp [s.runFault_summary_getLsbD]
    · simp [s.runFault_summary_getLsbD, i.isLt.ne]
  case named =>
    have fault : s.validate [] allAreas = some (n, k.fault) :=
      s.validate_eq_some n (fun m before => s.fault_readEntry_none m fun present k' => earlier m k' before present)
        (s.fault_readEntry_first n present fails first)
    refine ⟨_, s.exec_run_fault inSetup fault, ?_, inSetup, ?_⟩
    · rw [s.runFault_status n _ inSetup, DirCheck.fault_code]
    · simp [s.runFault_summary_getLsbD]

end Sys2Proof.Machine
end
